-- ==== Sys2Proof/Word.lean ====
section
/-! DEFINITION. The word types of tiny-IRPWM: operation words, register indices, host data, pin vectors. -/

namespace Sys2Proof

/-- The 42-bit operation word `op[41:0]` (`30_encoding.md` R52). -/
abbrev OpWord := BitVec 42

/-- The 8-bit register index `A` of the host port (`20_memory.md` R36). -/
abbrev Index := BitVec 8

/-- The 32-bit data path of the host port (`20_memory.md` R36). -/
abbrev Data := BitVec 32

/-- A vector of drive pins, pin 0 first; `true` is asserted (`10_state.md` R21, `30_encoding.md` R60). -/
abbrev Pins := List Bool

end Sys2Proof
end

