-- ==== Sys2Proof/Config.lean ====
section
/-! DEFINITION. The implementation parameters of `00_scope.md` R5, and the free value of `93_implementation_defined.md` U1. -/

namespace Sys2Proof

/-- The two half-phases of the H-bridge (`10_state.md` R16). -/
inductive Phase where
  | A
  | B
deriving DecidableEq, Repr

/-- `other(A) = B`, `other(B) = A` (`00_scope.md` R7). -/
def Phase.other : Phase → Phase
  | .A => .B
  | .B => .A

/-- One drive pin's configuration: `PIN_CH[j]` and `PIN_PH[j]` (`00_scope.md` R5; OPEN, `92_eei_decisions.md` D5). -/
structure PinMap where
  ch : Nat
  ph : Phase
deriving DecidableEq, Repr

/-- The parameters of the block (`00_scope.md` R5, `10_state.md` R10), each a field with the value of R5 as its default.
`N_PIN` is the length of `pinMap`. Log entry 3. -/
structure Config where
  /-- `N_CH`: number of brightness channels, that is of level registers. -/
  nCh : Nat := 4
  /-- `LEVEL_W`: width in bits of a level register. -/
  levelW : Nat := 8
  /-- `LEVEL_MAX`: the level at and above which a pin stays asserted for the whole half-phase. -/
  levelMax : Nat := 128
  /-- `PHASE_TICKS`: PWM ticks per half-phase. -/
  phaseTicks : Nat := 128
  /-- `CNT_W`: width of the in-phase counter. -/
  cntW : Nat := 7
  /-- `TKW`: width of the free-running tick counter. -/
  tkw : Nat := 32
  /-- Entry j holds `PIN_CH[j]` and `PIN_PH[j]`; its length is `N_PIN`. The default is that of D5. -/
  pinMap : List PinMap := [⟨0, .A⟩, ⟨1, .B⟩, ⟨2, .A⟩, ⟨3, .B⟩]
  /-- `GAP_TICKS`, the gap threshold in IR ticks. -/
  gapTicks : Nat := 100
  /-- `CAP`, the capacity of the duration buffer in entries. -/
  cap : Nat := 100
  /-- `TW`: width of the IR timer and of every buffer entry. -/
  tw : Nat := 16
  /-- `TMAX`: the value at which the IR timer saturates. -/
  tmax : Nat := 65535
  /-- `IR_TICK_US`: nominal period of the IR tick in microseconds; a label, no rule depends on it (R5, R136). -/
  irTickUs : Nat := 50
  /-- `PWM_TICK_HZ`: nominal rate of the PWM tick; a label, no rule depends on it (R5, R136). -/
  pwmTickHz : Nat := 51200
deriving DecidableEq, Repr

/-- `N_PIN` (R5). -/
def Config.nPin (c : Config) : Nat := c.pinMap.length

/-- `PIN_CH[j]`, meaningful for j < `N_PIN` (R5). -/
def Config.pinCh (c : Config) (j : Nat) : Nat := (c.pinMap.getD j ⟨0, .A⟩).ch

/-- `PIN_PH[j]`, meaningful for j < `N_PIN` (R5). -/
def Config.pinPh (c : Config) (j : Nat) : Phase := (c.pinMap.getD j ⟨0, .A⟩).ph

/-- The constraints that R5 states for a configuration. -/
abbrev Config.inRange (c : Config) : Prop :=
  c.gapTicks + 1 ≤ c.tmax ∧ 4 ≤ c.cap ∧ c.cap ≤ 128 ∧ 1 ≤ c.nPin ∧ c.nPin ≤ 8 ∧ ∀ m ∈ c.pinMap, m.ch < c.nCh

/-- What the meanings of the parameters ask of their values: `TMAX` is 2^`TW` - 1 (R5); the in-phase counter holds every
value below `PHASE_TICKS` (R5, `CNT_W`); a register fits the 32-bit data path (`20_memory.md` R36); and the level
registers fit their four indices (`10_state.md` R22). DEDUCED, log entry 3. -/
abbrev Config.fits (c : Config) : Prop :=
  c.tmax = 2 ^ c.tw - 1 ∧ 1 ≤ c.phaseTicks ∧ c.phaseTicks ≤ 2 ^ c.cntW ∧
  c.levelW ≤ 32 ∧ c.cntW ≤ 32 ∧ c.tkw ≤ 32 ∧ c.tw ≤ 32 ∧ c.nCh ≤ 4

/-- A legal configuration. -/
abbrev Config.wf (c : Config) : Prop := c.inRange ∧ c.fits

/-- The values this hardware takes (R5; the pin map is the default of D5). -/
def Config.default : Config := {}

/-- FREE VALUE (`93_implementation_defined.md` U1, `10_state.md` R14, R28): the content that the n-th `RESET` leaves in
`IR_RAWBUF[k]`, of which the entry holds the low `TW` bits. It has no body: nothing can be proved of it. Log entry 2. -/
opaque Config.rawbufDraw : Nat → Nat → Nat

end Sys2Proof
end

