-- ==== Sys2Proof/Syntax.lean ====
section
/-! DEFINITION. The operations of the block: one constructor for each row of spec/opcode_table.json (`30_encoding.md` R58). -/

namespace Sys2Proof

/-- The operations (`00_scope.md` R8, `30_encoding.md` R58). `s` is the electrical level sampled at an IR tick (R53),
`i` a channel number, `k` a buffer entry, `d` write data, `a` a register index (R57). An unmapped access carries its whole
index, as the table's field `a = op[39:32]`; that it lies in the row's range is a check of `Instr.WellFormed`. -/
inductive Instr where
  | pwmtick
  | irtick (s : Bool)
  | reset
  | rdPwmCtrl
  | wrPwmCtrl (d : Data)
  | rdPwmPhase
  | rdPwmCnt
  | rdPwmTicks
  | rdPwmPins
  | rdPwmLevel (i : Fin 4)
  | wrPwmLevel (i : Fin 4) (d : Data)
  | rdIrState
  | rdIrCtrl
  | wrIrCtrl (d : Data)
  | rdIrTimer
  | rdIrRawlen
  | rdIrRawbuf (k : Fin 128)
  | wrPwmPhase (d : Data)
  | wrPwmCnt (d : Data)
  | wrPwmTicks (d : Data)
  | wrPwmPins (d : Data)
  | wrIrState (d : Data)
  | wrIrTimer (d : Data)
  | wrIrRawlen (d : Data)
  | wrIrRawbuf (k : Fin 128) (d : Data)
  | rdUnmapped05 (a : Index)
  | rdUnmapped06to07 (a : Index)
  | rdUnmapped0Cto0F (a : Index)
  | rdUnmapped14to17 (a : Index)
  | rdUnmapped18to1F (a : Index)
  | rdUnmapped20to3F (a : Index)
  | rdUnmapped40to7F (a : Index)
  | wrUnmapped05 (a : Index) (d : Data)
  | wrUnmapped06to07 (a : Index) (d : Data)
  | wrUnmapped0Cto0F (a : Index) (d : Data)
  | wrUnmapped14to17 (a : Index) (d : Data)
  | wrUnmapped18to1F (a : Index) (d : Data)
  | wrUnmapped20to3F (a : Index) (d : Data)
  | wrUnmapped40to7F (a : Index) (d : Data)
deriving DecidableEq, Repr

end Sys2Proof
end

