-- ==== Sys2Proof/WellFormed.lean ====
section
/-! DEFINITION. Which terms of `Instr` an operation word can spell. -/

namespace Sys2Proof

/-- The index `a` lies in `lo..hi`. -/
def inRange (lo hi : Nat) (a : Index) : Bool := decide (lo ≤ a.toNat ∧ a.toNat ≤ hi)

/-- An access of an unmapped index carries an index of its row's range (`30_encoding.md` R58 and the split of its two
catch-all rows; `42_host_access.md` R102, R103). Every other operand fills its type, so every other term is well formed. -/
def Instr.wellFormed (i : Instr) : Bool :=
  match i with
  | .rdUnmapped05 a | .wrUnmapped05 a _ => inRange 0x05 0x05 a
  | .rdUnmapped06to07 a | .wrUnmapped06to07 a _ => inRange 0x06 0x07 a
  | .rdUnmapped0Cto0F a | .wrUnmapped0Cto0F a _ => inRange 0x0C 0x0F a
  | .rdUnmapped14to17 a | .wrUnmapped14to17 a _ => inRange 0x14 0x17 a
  | .rdUnmapped18to1F a | .wrUnmapped18to1F a _ => inRange 0x18 0x1F a
  | .rdUnmapped20to3F a | .wrUnmapped20to3F a _ => inRange 0x20 0x3F a
  | .rdUnmapped40to7F a | .wrUnmapped40to7F a _ => inRange 0x40 0x7F a
  | .pwmtick | .irtick _ | .reset
  | .rdPwmCtrl | .wrPwmCtrl _ | .rdPwmPhase | .rdPwmCnt | .rdPwmTicks | .rdPwmPins
  | .rdPwmLevel _ | .wrPwmLevel _ _
  | .rdIrState | .rdIrCtrl | .wrIrCtrl _ | .rdIrTimer | .rdIrRawlen | .rdIrRawbuf _
  | .wrPwmPhase _ | .wrPwmCnt _ | .wrPwmTicks _ | .wrPwmPins _
  | .wrIrState _ | .wrIrTimer _ | .wrIrRawlen _ | .wrIrRawbuf _ _ => true

end Sys2Proof
end

