-- ==== Sys2Proof/Decode.lean ====
section
/-! DEFINITION. The decoder of operation words, total on every word and rejecting by name, and the encoder
(`30_encoding.md` R52 to R59). -/

namespace Sys2Proof

/-- Why a word spells no operation (`30_encoding.md` R59). Safe: the decoder refuses these words and no others. -/
inductive DecodeError where
  /-- `EVT` with `A[7:2]` nonzero. -/
  | evtIndex
  /-- `EVT` with `A[0]` = 0 and `A[1]` = 1: a PWM tick with a sample. -/
  | evtPwmSample
  /-- `EVT` with `D` nonzero. -/
  | evtData
  /-- `RD` with `D` nonzero. -/
  | rdData
  /-- `RST` with `A` nonzero. -/
  | rstIndex
  /-- `RST` with `D` nonzero. -/
  | rstData
  /-- A number of more than 42 bits, which is no operation word (R52). -/
  | tooWide
deriving DecidableEq, Repr

/-- The field `KIND` = op[41:40] (R52). -/
def OpWord.kind (w : OpWord) : BitVec 2 := w.extractLsb' 40 2

/-- The field `A` = op[39:32] (R52). -/
def OpWord.index (w : OpWord) : Index := w.extractLsb' 32 8

/-- The field `D` = op[31:0] (R52). -/
def OpWord.data (w : OpWord) : Data := w.extractLsb' 0 32

/-- The word with the three given fields (R52). -/
def mkWord (kind : BitVec 2) (a : Index) (d : Data) : OpWord := kind ++ a ++ d

/-- The channel number `i = A[1:0]` of a level access (R57 (c)). -/
def channelOf (a : Index) : Fin 4 := (a.extractLsb' 0 2).toFin

/-- The buffer entry `k = A[6:0]` of a buffer access (R57 (d)). -/
def entryOf (a : Index) : Fin 128 := (a.extractLsb' 0 7).toFin

/-- The operation `RD a` (R58; ranges as `20_memory.md` R37). -/
def decodeRd (a : Index) : Instr :=
  if a = 0x00 then .rdPwmCtrl
  else if a = 0x01 then .rdPwmPhase
  else if a = 0x02 then .rdPwmCnt
  else if a = 0x03 then .rdPwmTicks
  else if a = 0x04 then .rdPwmPins
  else if a = 0x05 then .rdUnmapped05 a
  else if inRange 0x06 0x07 a then .rdUnmapped06to07 a
  else if inRange 0x08 0x0B a then .rdPwmLevel (channelOf a)
  else if inRange 0x0C 0x0F a then .rdUnmapped0Cto0F a
  else if a = 0x10 then .rdIrState
  else if a = 0x11 then .rdIrCtrl
  else if a = 0x12 then .rdIrTimer
  else if a = 0x13 then .rdIrRawlen
  else if inRange 0x14 0x17 a then .rdUnmapped14to17 a
  else if inRange 0x18 0x1F a then .rdUnmapped18to1F a
  else if inRange 0x20 0x3F a then .rdUnmapped20to3F a
  else if inRange 0x40 0x7F a then .rdUnmapped40to7F a
  else .rdIrRawbuf (entryOf a)

/-- The operation `WR a, d` (R58; ranges as `20_memory.md` R37). -/
def decodeWr (a : Index) (d : Data) : Instr :=
  if a = 0x00 then .wrPwmCtrl d
  else if a = 0x01 then .wrPwmPhase d
  else if a = 0x02 then .wrPwmCnt d
  else if a = 0x03 then .wrPwmTicks d
  else if a = 0x04 then .wrPwmPins d
  else if a = 0x05 then .wrUnmapped05 a d
  else if inRange 0x06 0x07 a then .wrUnmapped06to07 a d
  else if inRange 0x08 0x0B a then .wrPwmLevel (channelOf a) d
  else if inRange 0x0C 0x0F a then .wrUnmapped0Cto0F a d
  else if a = 0x10 then .wrIrState d
  else if a = 0x11 then .wrIrCtrl d
  else if a = 0x12 then .wrIrTimer d
  else if a = 0x13 then .wrIrRawlen d
  else if inRange 0x14 0x17 a then .wrUnmapped14to17 a d
  else if inRange 0x18 0x1F a then .wrUnmapped18to1F a d
  else if inRange 0x20 0x3F a then .wrUnmapped20to3F a d
  else if inRange 0x40 0x7F a then .wrUnmapped40to7F a d
  else .wrIrRawbuf (entryOf a) d

/-- Format `EVT` (R53): `UNIT` = A[0], the sample `s` = A[1] (R57 (e)). -/
def decodeEvt (a : Index) (d : Data) : Except DecodeError Instr :=
  if a.extractLsb' 2 6 ≠ 0 then .error .evtIndex
  else if d ≠ 0 then .error .evtData
  else if a.getLsbD 0 then .ok (.irtick (a.getLsbD 1))
  else if a.getLsbD 1 then .error .evtPwmSample
  else .ok .pwmtick

/-- Format `RST` (R56). -/
def decodeRst (a : Index) (d : Data) : Except DecodeError Instr :=
  if a ≠ 0 then .error .rstIndex
  else if d ≠ 0 then .error .rstData
  else .ok .reset

/-- The decoder: the operation a word spells, or why it spells none (R52, R58, R59). -/
def decode (w : OpWord) : Except DecodeError Instr :=
  if w.kind = 0 then (if w.data = 0 then .ok (decodeRd w.index) else .error .rdData)
  else if w.kind = 1 then .ok (decodeWr w.index w.data)
  else if w.kind = 2 then decodeEvt w.index w.data
  else decodeRst w.index w.data

/-- The decoder on any number, and so on the bytes of any trace read as one: a number of more than 42 bits is refused by
name, never cut down to a word. -/
def decodeNat (n : Nat) : Except DecodeError Instr :=
  if n < 2 ^ 42 then decode (BitVec.ofNat 42 n) else .error .tooWide

/-- The instruction the decoder reads from the `nbits` low bits of `w`. -/
def decodeTableWord (nbits w : Nat) : Option Instr :=
  match decodeNat (w % 2 ^ nbits) with
  | .ok i => some i
  | .error _ => none

/-- Format `RD` (R54). -/
def rdWord (a : Index) : OpWord := mkWord 0 a 0

/-- Format `WR` (R55). -/
def wrWord (a : Index) (d : Data) : OpWord := mkWord 1 a d

/-- Format `EVT` (R53): A = `000000 s unit`. -/
def evtWord (s unit : Bool) : OpWord := mkWord 2 (0#6 ++ BitVec.ofBool s ++ BitVec.ofBool unit) 0

/-- Format `RST` (R56). -/
def rstWord : OpWord := mkWord 3 0 0

/-- The index 0x08 + i of a level register (`10_state.md` R22). -/
def levelIndex (i : Fin 4) : Index := 0b000010#6 ++ BitVec.ofNat 2 i.val

/-- The index 0x80 + k of a buffer entry (`10_state.md` R22). -/
def rawbufIndex (k : Fin 128) : Index := 1#1 ++ BitVec.ofNat 7 k.val

/-- The encoder: the canonical word of an operation (R52 to R58). -/
def encode : Instr → OpWord
  | .pwmtick => evtWord false false
  | .irtick s => evtWord s true
  | .reset => rstWord
  | .rdPwmCtrl => rdWord 0x00
  | .wrPwmCtrl d => wrWord 0x00 d
  | .rdPwmPhase => rdWord 0x01
  | .rdPwmCnt => rdWord 0x02
  | .rdPwmTicks => rdWord 0x03
  | .rdPwmPins => rdWord 0x04
  | .rdPwmLevel i => rdWord (levelIndex i)
  | .wrPwmLevel i d => wrWord (levelIndex i) d
  | .rdIrState => rdWord 0x10
  | .rdIrCtrl => rdWord 0x11
  | .wrIrCtrl d => wrWord 0x11 d
  | .rdIrTimer => rdWord 0x12
  | .rdIrRawlen => rdWord 0x13
  | .rdIrRawbuf k => rdWord (rawbufIndex k)
  | .wrPwmPhase d => wrWord 0x01 d
  | .wrPwmCnt d => wrWord 0x02 d
  | .wrPwmTicks d => wrWord 0x03 d
  | .wrPwmPins d => wrWord 0x04 d
  | .wrIrState d => wrWord 0x10 d
  | .wrIrTimer d => wrWord 0x12 d
  | .wrIrRawlen d => wrWord 0x13 d
  | .wrIrRawbuf k d => wrWord (rawbufIndex k) d
  | .rdUnmapped05 a => rdWord a
  | .rdUnmapped06to07 a => rdWord a
  | .rdUnmapped0Cto0F a => rdWord a
  | .rdUnmapped14to17 a => rdWord a
  | .rdUnmapped18to1F a => rdWord a
  | .rdUnmapped20to3F a => rdWord a
  | .rdUnmapped40to7F a => rdWord a
  | .wrUnmapped05 a d => wrWord a d
  | .wrUnmapped06to07 a d => wrWord a d
  | .wrUnmapped0Cto0F a d => wrWord a d
  | .wrUnmapped14to17 a d => wrWord a d
  | .wrUnmapped18to1F a d => wrWord a d
  | .wrUnmapped20to3F a d => wrWord a d
  | .wrUnmapped40to7F a d => wrWord a d

/-- One row of the operation map: a word `w` is the row's operation when `w &&& mask = pattern` (R58). -/
structure OpRow where
  name : String
  pattern : OpWord
  mask : OpWord
deriving DecidableEq, Repr

/-- The match and mask of each operation's row of spec/opcode_table.json, transcribed from the table and not from the
encoder (R58). -/
def opRow : Instr → OpRow
  | .pwmtick => ⟨"PWMTICK", 0x20000000000, 0x3FFFFFFFFFF⟩
  | .irtick _ => ⟨"IRTICK_s", 0x20100000000, 0x3FDFFFFFFFF⟩
  | .reset => ⟨"RESET", 0x30000000000, 0x3FFFFFFFFFF⟩
  | .rdPwmCtrl => ⟨"RD_PWM_CTRL", 0x00000000000, 0x3FFFFFFFFFF⟩
  | .wrPwmCtrl _ => ⟨"WR_PWM_CTRL__d", 0x10000000000, 0x3FF00000000⟩
  | .rdPwmPhase => ⟨"RD_PWM_PHASE", 0x00100000000, 0x3FFFFFFFFFF⟩
  | .rdPwmCnt => ⟨"RD_PWM_CNT", 0x00200000000, 0x3FFFFFFFFFF⟩
  | .rdPwmTicks => ⟨"RD_PWM_TICKS", 0x00300000000, 0x3FFFFFFFFFF⟩
  | .rdPwmPins => ⟨"RD_PWM_PINS", 0x00400000000, 0x3FFFFFFFFFF⟩
  | .rdPwmLevel _ => ⟨"RD_PWM_LEVELi", 0x00800000000, 0x3FCFFFFFFFF⟩
  | .wrPwmLevel _ _ => ⟨"WR_PWM_LEVELi__d", 0x10800000000, 0x3FC00000000⟩
  | .rdIrState => ⟨"RD_IR_STATE", 0x01000000000, 0x3FFFFFFFFFF⟩
  | .rdIrCtrl => ⟨"RD_IR_CTRL", 0x01100000000, 0x3FFFFFFFFFF⟩
  | .wrIrCtrl _ => ⟨"WR_IR_CTRL__d", 0x11100000000, 0x3FF00000000⟩
  | .rdIrTimer => ⟨"RD_IR_TIMER", 0x01200000000, 0x3FFFFFFFFFF⟩
  | .rdIrRawlen => ⟨"RD_IR_RAWLEN", 0x01300000000, 0x3FFFFFFFFFF⟩
  | .rdIrRawbuf _ => ⟨"RD_IR_RAWBUF_k", 0x08000000000, 0x380FFFFFFFF⟩
  | .wrPwmPhase _ => ⟨"WR_PWM_PHASE__d", 0x10100000000, 0x3FF00000000⟩
  | .wrPwmCnt _ => ⟨"WR_PWM_CNT__d", 0x10200000000, 0x3FF00000000⟩
  | .wrPwmTicks _ => ⟨"WR_PWM_TICKS__d", 0x10300000000, 0x3FF00000000⟩
  | .wrPwmPins _ => ⟨"WR_PWM_PINS__d", 0x10400000000, 0x3FF00000000⟩
  | .wrIrState _ => ⟨"WR_IR_STATE__d", 0x11000000000, 0x3FF00000000⟩
  | .wrIrTimer _ => ⟨"WR_IR_TIMER__d", 0x11200000000, 0x3FF00000000⟩
  | .wrIrRawlen _ => ⟨"WR_IR_RAWLEN__d", 0x11300000000, 0x3FF00000000⟩
  | .wrIrRawbuf _ _ => ⟨"WR_IR_RAWBUF_k___d", 0x18000000000, 0x38000000000⟩
  | .rdUnmapped05 _ => ⟨"RD__unmapped_a_in_0x05", 0x00500000000, 0x3FFFFFFFFFF⟩
  | .rdUnmapped06to07 _ => ⟨"RD__unmapped_a_in_0x06..0x07", 0x00600000000, 0x3FEFFFFFFFF⟩
  | .rdUnmapped0Cto0F _ => ⟨"RD__unmapped_a_in_0x0C..0x0F", 0x00C00000000, 0x3FCFFFFFFFF⟩
  | .rdUnmapped14to17 _ => ⟨"RD__unmapped_a_in_0x14..0x17", 0x01400000000, 0x3FCFFFFFFFF⟩
  | .rdUnmapped18to1F _ => ⟨"RD__unmapped_a_in_0x18..0x1F", 0x01800000000, 0x3F8FFFFFFFF⟩
  | .rdUnmapped20to3F _ => ⟨"RD__unmapped_a_in_0x20..0x3F", 0x02000000000, 0x3E0FFFFFFFF⟩
  | .rdUnmapped40to7F _ => ⟨"RD__unmapped_a_in_0x40..0x7F", 0x04000000000, 0x3C0FFFFFFFF⟩
  | .wrUnmapped05 _ _ => ⟨"WR__unmapped_a_in_0x05___d", 0x10500000000, 0x3FF00000000⟩
  | .wrUnmapped06to07 _ _ => ⟨"WR__unmapped_a_in_0x06..0x07___d", 0x10600000000, 0x3FE00000000⟩
  | .wrUnmapped0Cto0F _ _ => ⟨"WR__unmapped_a_in_0x0C..0x0F___d", 0x10C00000000, 0x3FC00000000⟩
  | .wrUnmapped14to17 _ _ => ⟨"WR__unmapped_a_in_0x14..0x17___d", 0x11400000000, 0x3FC00000000⟩
  | .wrUnmapped18to1F _ _ => ⟨"WR__unmapped_a_in_0x18..0x1F___d", 0x11800000000, 0x3F800000000⟩
  | .wrUnmapped20to3F _ _ => ⟨"WR__unmapped_a_in_0x20..0x3F___d", 0x12000000000, 0x3E000000000⟩
  | .wrUnmapped40to7F _ _ => ⟨"WR__unmapped_a_in_0x40..0x7F___d", 0x14000000000, 0x3C000000000⟩

end Sys2Proof
end

