-- ==== Sys2Proof/Machine/State.lean ====
section
/-! DEFINITION. The state of the block, the reasons a step can stop, and the state after reset (`10_state.md`). -/

namespace Sys2Proof.Machine

/-- The capture state `IR_STATE` (`10_state.md` R11). -/
inductive IrState where
  | idle
  | mark
  | space
  | stop
deriving DecidableEq, Repr

/-- The state of IRRX, the capture unit (`10_state.md` section 2). A register whose width is a parameter (R5) is a number;
every operation that writes it keeps it to its width, and `Safety.irShape` says that it fits. -/
structure Irrx where
  /-- `IR_STATE` (R11). -/
  state : IrState
  /-- `IR_TIMER`, `TW` bits (R12). -/
  timer : Nat
  /-- `IR_RAWLEN`, held in 8 bits (R13). -/
  rawlen : BitVec 8
  /-- `IR_RAWBUF[0..CAP-1]`, entry 0 first, `TW` bits each (R14). -/
  rawbuf : List Nat
deriving DecidableEq, Repr

/-- The state of PHPWM, the phase and PWM generator (`10_state.md` section 3). A register whose width is a parameter is a
number; every operation that writes it keeps it to its width, and `Safety.pwmShape` says that it fits. -/
structure Phpwm where
  /-- `PWM_PHASE` (R16). -/
  phase : Phase
  /-- `PWM_CNT`, `CNT_W` bits (R17). -/
  cnt : Nat
  /-- `PWM_TICKS`, `TKW` bits (R18). -/
  ticks : Nat
  /-- `PWM_HALT` (R19). -/
  halt : Bool
  /-- `PWM_LEVEL[0..N_CH-1]`, channel 0 first, `LEVEL_W` bits each (R20). -/
  level : List Nat
  /-- `PWM_PIN[0..N_PIN-1]`, pin 0 first (R21). -/
  pin : Pins
deriving DecidableEq, Repr

/-- What the last operation put on the output ports (`30_encoding.md` R50). Outputs, not state of the block (R10): no
operation reads them. Log entry 5. -/
structure PortOut where
  /-- `h_rdata`: the result of a `RD`, valid for that operation only. -/
  hRdata : Option Data
  /-- `tick_evt`: a `PWMTICK` was performed (`60_exceptions.md` R113). -/
  tickEvt : Bool
  /-- The pin vectors that `ch_pin` shows during the operation, in order: the one at `then-visible` where the operation
  has that point (`41_phase_pwm.md` R79), and last the one after it. -/
  chPin : List Pins
deriving DecidableEq, Repr

/-- The machine. `ir` and `pwm` are the ten state elements of `10_state.md` R10; the other fields are the model's own:
the parameters of the run (`cfg`), what the ports showed (`out`), the operations the environment has presented and the
block has not performed yet (`ops`, log entry 1), and how many `RESET`s have drawn buffer contents (`draws`, log
entry 2). -/
structure State where
  cfg : Config
  ir : Irrx
  pwm : Phpwm
  out : PortOut
  ops : List OpWord
  draws : Nat
deriving DecidableEq, Repr

/-- A fault. There is none: no operation raises an exception, traps, faults or hangs (`60_exceptions.md` R107). -/
inductive Fault where
deriving DecidableEq, Repr

/-- The machine is not asked to go on. -/
inductive Refusal where
  /-- Raised by `exec` for an operation that has no meaning in the model yet. No arm raises it. Safe: the run ends. -/
  | notModelled (mnemonic : String)
  /-- Raised by `step` when the next word of the trace spells no operation (`30_encoding.md` R59,
  `93_implementation_defined.md` U5). Safe: no port activity corresponds to such a word. -/
  | noOperation (reason : DecodeError)
deriving DecidableEq, Repr

/-- The content of the buffer after the n-th `RESET`: unspecified, so every entry is a free value (`10_state.md` R14,
R28; `93_implementation_defined.md` U1). -/
def freshRawbuf (c : Config) (n : Nat) : List Nat :=
  (List.range c.cap).map fun k => Config.rawbufDraw n k % 2 ^ c.tw

/-- IRRX after the n-th `RESET` (`10_state.md` R28). -/
def Irrx.afterReset (c : Config) (n : Nat) : Irrx where
  state := .idle
  timer := 0
  rawlen := 0
  rawbuf := freshRawbuf c n

/-- Every drive pin de-asserted. -/
def Pins.allLow (c : Config) : Pins := List.replicate c.nPin false

/-- PHPWM after `RESET` (`10_state.md` R28). -/
def Phpwm.afterReset (c : Config) : Phpwm where
  phase := .A
  cnt := 0
  ticks := 0
  halt := false
  level := List.replicate c.nCh 0
  pin := Pins.allLow c

/-- The machine right after `RESET` with the configuration of this hardware (`10_state.md` R28, `00_scope.md` R5), and no
operation presented yet. -/
def State.reset : State where
  cfg := Config.default
  ir := Irrx.afterReset Config.default 0
  pwm := Phpwm.afterReset Config.default
  out := ⟨none, false, [Pins.allLow Config.default]⟩
  ops := []
  draws := 1

end Sys2Proof.Machine
end

