-- ==== Sys2Proof/Machine/Ops.lean ====
section
/-! DEFINITION. The named operations that the meanings share. The block takes no exception and returns from none
(`60_exceptions.md` R107, R116, R117), so no operation here enters or leaves one. -/

namespace Sys2Proof.Machine

/-! ### Ending an operation: what the ports show -/

/-- The ports after an operation that returns nothing and ticks nothing (`30_encoding.md` R50). -/
def quiet (p : Phpwm) : PortOut := ⟨none, false, [p.pin]⟩

/-- The block goes on with a new IRRX state; PHPWM is untouched. -/
def State.withIr (s : State) (ir : Irrx) : State := { s with ir := ir, out := quiet s.pwm }

/-- The block goes on with a new PHPWM state; IRRX is untouched. -/
def State.withPwm (s : State) (p : Phpwm) : State := { s with pwm := p, out := quiet p }

/-- The ports alone change. -/
def State.withOut (s : State) (o : PortOut) : State := { s with out := o }

/-- The environment's pending operations alone change. -/
def State.withOps (s : State) (ops : List OpWord) : State := { s with ops := ops }

/-- The end of a `RD`: the value is on `h_rdata` and no state changes (`42_host_access.md` R86). -/
def respond (s : State) (v : Data) : Host.Outcome State Fault Refusal :=
  .next (s.withOut { quiet s.pwm with hRdata := some v })

/-- The end of an operation with no effect on any state (`42_host_access.md` R101, R103). -/
def ignore (s : State) : Host.Outcome State Fault Refusal := .next (s.withOut (quiet s.pwm))

/-! ### Widths -/

/-- `trunc_n(v)`: the low n bits of v (`00_scope.md` R6). -/
def trunc (n v : Nat) : Nat := v % 2 ^ n

/-! ### IRRX -/

/-- `sat_inc`: one more tick, saturating at `TMAX` (`00_scope.md` R6). -/
def satInc (c : Config) (t : Nat) : Nat := if t < c.tmax then t + 1 else c.tmax

/-- `mark(s)`: a sample of electrical level 0 is a mark, the input being active low (`40_ir_capture.md` R65). -/
def isMark (s : Bool) : Bool := !s

/-- `record(d, next)` (`40_ir_capture.md` R67): the duration goes to entry `IR_RAWLEN`, the timer restarts, and the record
that fills the buffer forces STOP. -/
def record (c : Config) (d : Nat) (next : IrState) (ir : Irrx) : Irrx where
  state := if ir.rawlen.toNat + 1 = c.cap then .stop else next
  timer := 0
  rawlen := ir.rawlen + 1
  rawbuf := ir.rawbuf.set ir.rawlen.toNat d

/-- `IR_RAWBUF[k]`: the entry held at k; no storage backs an entry past the buffer's end (`10_state.md` R14). -/
def irEntry (ir : Irrx) (k : Nat) : Nat := ir.rawbuf.getD k 0

/-- RESUME (`42_host_access.md` R97): out of STOP only, to IDLE with an empty frame; the timer and the entries are kept. -/
def resume (ir : Irrx) : Irrx := if ir.state = .stop then { ir with state := .idle, rawlen := 0 } else ir

/-! ### PHPWM -/

/-- The latch of drive pin j; a pin that does not exist is de-asserted. -/
def Pins.get (v : Pins) (j : Nat) : Bool := v.getD j false

/-- The pin vector whose pin j is `f j`, for every j < `N_PIN`. -/
def Pins.tabulate (c : Config) (f : Nat → Bool) : Pins := (List.range c.nPin).map f

/-- `PWM_LEVEL[i]`: the level held for channel i; a channel that does not exist has level 0. -/
def levelAt (p : Phpwm) (i : Nat) : Nat := p.level.getD i 0

/-- Flip, step 1: every pin of the phase being left is de-asserted; `p` is the phase being entered
(`41_phase_pwm.md` R79). -/
def Pins.leave (c : Config) (p : Phase) (v : Pins) : Pins :=
  Pins.tabulate c fun j => if c.pinPh j ≠ p then false else Pins.get v j

/-- Flip, step 2: every pin of the phase being entered is asserted (`41_phase_pwm.md` R79). -/
def Pins.enter (c : Config) (p : Phase) (v : Pins) : Pins :=
  Pins.tabulate c fun j => if c.pinPh j = p then true else Pins.get v j

/-- The duty comparison of R80 for one level: the in-phase count has reached it. A level of `LEVEL_MAX` and above holds the
pin for the whole half-phase (R80, `00_scope.md` R5); with `LEVEL_MAX` >= `PHASE_TICKS`, as here, no count reaches such a
level anyway (`Laws/Ops.lean`, `dutyReached_of_count`). Log entry 15. -/
def dutyReached (c : Config) (level cnt : Nat) : Bool := decide (level ≤ cnt ∧ level < c.levelMax)

/-- The duty comparison (`41_phase_pwm.md` R80): it clears the pins of the active phase whose level the new count has
reached, and sets none. -/
def Pins.compare (c : Config) (p : Phase) (level : Nat → Nat) (cnt : Nat) (v : Pins) : Pins :=
  Pins.tabulate c fun j =>
    if c.pinPh j = p ∧ dutyReached c (level (c.pinCh j)) cnt = true then false else Pins.get v j

/-- The effect of writing HALT (`42_host_access.md` R88): setting it clears every pin in the same operation, clearing it
writes the flag alone. -/
def writeHalt (c : Config) (h : Bool) (p : Phpwm) : Phpwm :=
  { p with halt := h, pin := if h then Pins.allLow c else p.pin }

/-- The effect of writing a level (`42_host_access.md` R94): that level alone. An index of no channel (i >= `N_CH`) has no
register, and the write is ignored (R103; log entry 3). -/
def writeLevel (c : Config) (i : Fin 4) (v : Nat) (p : Phpwm) : Phpwm :=
  { p with level := if i.val < c.nCh then p.level.set i.val v else p.level }

/-! ### RESET -/

/-- `RESET` (`42_host_access.md` R104, `10_state.md` R28): every state element at its reset value, the buffer entries at
fresh unspecified values. The configuration and the environment's pending operations are not state of the block. -/
def resetBlock (s : State) : State where
  cfg := s.cfg
  ir := Irrx.afterReset s.cfg s.draws
  pwm := Phpwm.afterReset s.cfg
  out := quiet (Phpwm.afterReset s.cfg)
  ops := s.ops
  draws := s.draws + 1

end Sys2Proof.Machine
end

