-- ==== Sys2Proof/Machine/Operands.lean ====
section
/-! DEFINITION. Operand assembly (`30_encoding.md` R57), the value each register reads as, and the host port's two total
functions `RegRead` and `RegWrite` (`20_memory.md` R36, `42_host_access.md` R86). The fields of a word that number a
channel, an entry or a sample are taken out by the decoder. -/

namespace Sys2Proof.Machine

/-! ### Write data: the register's implemented bits (R57 (a)) -/

/-- HALT = D[0] (`42_host_access.md` R88). -/
def haltOf (d : Data) : Bool := d.getLsbD 0

/-- LEVEL: the low `LEVEL_W` bits of D, D[7:0] here (`42_host_access.md` R94). -/
def levelOf (c : Config) (d : Data) : Nat := trunc c.levelW d.toNat

/-- RESUME = D[0] (`42_host_access.md` R97). -/
def resumeOf (d : Data) : Bool := d.getLsbD 0

/-! ### Value encodings (R60) -/

/-- The code of `IR_STATE` (`10_state.md` R11). -/
def IrState.code : IrState → BitVec 2
  | .idle => 0
  | .mark => 1
  | .space => 2
  | .stop => 3

/-- The code of `PWM_PHASE` (`10_state.md` R16). -/
def phaseCode : Phase → BitVec 1
  | .A => 0
  | .B => 1

/-! ### Read data: the implemented bits, zero above (R57 (b), `42_host_access.md` R105) -/

/-- `zext_32` of a register held as a number (`00_scope.md` R6). -/
def zext32 (v : Nat) : Data := BitVec.ofNat 32 v

/-- `PWM_CTRL` (`42_host_access.md` R87). -/
def readCtrl (p : Phpwm) : Data := (BitVec.ofBool p.halt).setWidth 32

/-- `PWM_PHASE` (R89). -/
def readPhase (p : Phpwm) : Data := (phaseCode p.phase).setWidth 32

/-- `PWM_CNT` (R90). -/
def readCnt (p : Phpwm) : Data := zext32 p.cnt

/-- `PWM_TICKS` (R91). -/
def readTicks (p : Phpwm) : Data := zext32 p.ticks

/-- `PWM_PINS` (R92): bit j is pin j for j < `N_PIN`. -/
def readPins (c : Config) (p : Phpwm) : Data :=
  (BitVec.ofBoolListLE (Pins.tabulate c (Pins.get p.pin))).setWidth 32

/-- `PWM_LEVELi` (R93); an index of no channel (i >= `N_CH`) has no register and reads 0 (R102; log entry 3). -/
def readLevel (c : Config) (i : Fin 4) (p : Phpwm) : Data := if i.val < c.nCh then zext32 (levelAt p i.val) else 0

/-- `IR_STATE` (R95). -/
def readIrState (ir : Irrx) : Data := ir.state.code.setWidth 32

/-- `IR_CTRL` reads 0 (R96). -/
def readIrCtrl : Data := 0

/-- `IR_TIMER` (R98). -/
def readTimer (ir : Irrx) : Data := zext32 ir.timer

/-- `IR_RAWLEN` (R99). -/
def readRawlen (ir : Irrx) : Data := ir.rawlen.setWidth 32

/-- `IR_RAWBUF[k]` (R100): an entry at k >= `CAP` reads 0. -/
def readRawbuf (c : Config) (k : Fin 128) (ir : Irrx) : Data :=
  if k.val < c.cap then zext32 (irEntry ir k.val) else 0

/-- An unmapped index reads 0 (R102). -/
def readUnmapped : Data := 0

/-! ### The host port's functions on whole indices -/

/-- `RegRead(a)` (`20_memory.md` R36), by the address map of R37. -/
def regRead (a : Index) (s : State) : Data :=
  if a = 0x00 then readCtrl s.pwm
  else if a = 0x01 then readPhase s.pwm
  else if a = 0x02 then readCnt s.pwm
  else if a = 0x03 then readTicks s.pwm
  else if a = 0x04 then readPins s.cfg s.pwm
  else if 0x08 ≤ a.toNat ∧ a.toNat ≤ 0x0B then readLevel s.cfg (channelOf a) s.pwm
  else if a = 0x10 then readIrState s.ir
  else if a = 0x11 then readIrCtrl
  else if a = 0x12 then readTimer s.ir
  else if a = 0x13 then readRawlen s.ir
  else if 0x80 ≤ a.toNat then readRawbuf s.cfg (entryOf a) s.ir
  else readUnmapped

/-- The write effect `RegWrite(a, d)` (`20_memory.md` R36): the two writable registers and the RESUME command
(`60_exceptions.md` R118); every other index is ignored (`42_host_access.md` R101, R103). -/
def regWrite (a : Index) (d : Data) (s : State) : State :=
  if a = 0x00 then s.withPwm (writeHalt s.cfg (haltOf d) s.pwm)
  else if 0x08 ≤ a.toNat ∧ a.toNat ≤ 0x0B then s.withPwm (writeLevel s.cfg (channelOf a) (levelOf s.cfg d) s.pwm)
  else if a = 0x11 then s.withIr (if resumeOf d then resume s.ir else s.ir)
  else s.withOut (quiet s.pwm)

end Sys2Proof.Machine
end

