-- ==== Sys2Proof/Machine/HostIr.lean ====
section
/-! DEFINITION. The host operations on IRRX's registers (`42_host_access.md` section 3). -/

namespace Sys2Proof.Machine

/-- `RD IR_STATE` (R95). -/
def execRdIrState (s : State) : Host.Outcome State Fault Refusal := respond s (readIrState s.ir)

/-- `RD IR_CTRL` (R96). -/
def execRdIrCtrl (s : State) : Host.Outcome State Fault Refusal := respond s readIrCtrl

/-- `WR IR_CTRL, d` (R97): the RESUME command, when `d[0]` = 1. -/
def execWrIrCtrl (d : Data) (s : State) : Host.Outcome State Fault Refusal :=
  .next (s.withIr (if resumeOf d then resume s.ir else s.ir))

/-- `RD IR_TIMER` (R98). -/
def execRdIrTimer (s : State) : Host.Outcome State Fault Refusal := respond s (readTimer s.ir)

/-- `RD IR_RAWLEN` (R99). -/
def execRdIrRawlen (s : State) : Host.Outcome State Fault Refusal := respond s (readRawlen s.ir)

/-- `RD IR_RAWBUF[k]` (R100). -/
def execRdIrRawbuf (k : Fin 128) (s : State) : Host.Outcome State Fault Refusal :=
  respond s (readRawbuf s.cfg k s.ir)

end Sys2Proof.Machine
end

