-- ==== Sys2Proof/Machine/HostPwm.lean ====
section
/-! DEFINITION. The host operations on PHPWM's registers (`42_host_access.md` section 2). -/

namespace Sys2Proof.Machine

/-- `RD PWM_CTRL` (R87). -/
def execRdPwmCtrl (s : State) : Host.Outcome State Fault Refusal := respond s (readCtrl s.pwm)

/-- `WR PWM_CTRL, d` (R88). -/
def execWrPwmCtrl (d : Data) (s : State) : Host.Outcome State Fault Refusal :=
  .next (s.withPwm (writeHalt s.cfg (haltOf d) s.pwm))

/-- `RD PWM_PHASE` (R89). -/
def execRdPwmPhase (s : State) : Host.Outcome State Fault Refusal := respond s (readPhase s.pwm)

/-- `RD PWM_CNT` (R90). -/
def execRdPwmCnt (s : State) : Host.Outcome State Fault Refusal := respond s (readCnt s.pwm)

/-- `RD PWM_TICKS` (R91). -/
def execRdPwmTicks (s : State) : Host.Outcome State Fault Refusal := respond s (readTicks s.pwm)

/-- `RD PWM_PINS` (R92). -/
def execRdPwmPins (s : State) : Host.Outcome State Fault Refusal := respond s (readPins s.cfg s.pwm)

/-- `RD PWM_LEVELi` (R93). -/
def execRdPwmLevel (i : Fin 4) (s : State) : Host.Outcome State Fault Refusal := respond s (readLevel s.cfg i s.pwm)

/-- `WR PWM_LEVELi, d` (R94). -/
def execWrPwmLevel (i : Fin 4) (d : Data) (s : State) : Host.Outcome State Fault Refusal :=
  .next (s.withPwm (writeLevel s.cfg i (levelOf s.cfg d) s.pwm))

end Sys2Proof.Machine
end

