-- ==== Sys2Proof/Machine/HostReadOnly.lean ====
section
/-! DEFINITION. `WR` to the read-only registers: no effect on any state, no error (`42_host_access.md` R101). -/

namespace Sys2Proof.Machine

/-- `WR PWM_PHASE, d` (R101). -/
def execWrPwmPhase (_d : Data) (s : State) : Host.Outcome State Fault Refusal := ignore s

/-- `WR PWM_CNT, d` (R101). -/
def execWrPwmCnt (_d : Data) (s : State) : Host.Outcome State Fault Refusal := ignore s

/-- `WR PWM_TICKS, d` (R101). -/
def execWrPwmTicks (_d : Data) (s : State) : Host.Outcome State Fault Refusal := ignore s

/-- `WR PWM_PINS, d` (R101). -/
def execWrPwmPins (_d : Data) (s : State) : Host.Outcome State Fault Refusal := ignore s

/-- `WR IR_STATE, d` (R101). -/
def execWrIrState (_d : Data) (s : State) : Host.Outcome State Fault Refusal := ignore s

/-- `WR IR_TIMER, d` (R101). -/
def execWrIrTimer (_d : Data) (s : State) : Host.Outcome State Fault Refusal := ignore s

/-- `WR IR_RAWLEN, d` (R101). -/
def execWrIrRawlen (_d : Data) (s : State) : Host.Outcome State Fault Refusal := ignore s

/-- `WR IR_RAWBUF[k], d` (R101). -/
def execWrIrRawbuf (_k : Fin 128) (_d : Data) (s : State) : Host.Outcome State Fault Refusal := ignore s

end Sys2Proof.Machine
end

