-- ==== Sys2Proof/Machine/HostUnmapped.lean ====
section
/-! DEFINITION. The host operations on unmapped indices: a read gives 0, a write has no effect, neither is an error
(`42_host_access.md` R102, R103). -/

namespace Sys2Proof.Machine

/-- `RD` of an unmapped index, 0x05 (R102). -/
def execRdUnmapped05 (_a : Index) (s : State) : Host.Outcome State Fault Refusal := respond s readUnmapped

/-- `RD` of an unmapped index, 0x06 to 0x07 (R102). -/
def execRdUnmapped06to07 (_a : Index) (s : State) : Host.Outcome State Fault Refusal := respond s readUnmapped

/-- `RD` of an unmapped index, 0x0C to 0x0F (R102). -/
def execRdUnmapped0Cto0F (_a : Index) (s : State) : Host.Outcome State Fault Refusal := respond s readUnmapped

/-- `RD` of an unmapped index, 0x14 to 0x17 (R102). -/
def execRdUnmapped14to17 (_a : Index) (s : State) : Host.Outcome State Fault Refusal := respond s readUnmapped

/-- `RD` of an unmapped index, 0x18 to 0x1F (R102). -/
def execRdUnmapped18to1F (_a : Index) (s : State) : Host.Outcome State Fault Refusal := respond s readUnmapped

/-- `RD` of an unmapped index, 0x20 to 0x3F (R102). -/
def execRdUnmapped20to3F (_a : Index) (s : State) : Host.Outcome State Fault Refusal := respond s readUnmapped

/-- `RD` of an unmapped index, 0x40 to 0x7F (R102). -/
def execRdUnmapped40to7F (_a : Index) (s : State) : Host.Outcome State Fault Refusal := respond s readUnmapped

/-- `WR` to an unmapped index, 0x05 (R103). -/
def execWrUnmapped05 (_a : Index) (_d : Data) (s : State) : Host.Outcome State Fault Refusal := ignore s

/-- `WR` to an unmapped index, 0x06 to 0x07 (R103). -/
def execWrUnmapped06to07 (_a : Index) (_d : Data) (s : State) : Host.Outcome State Fault Refusal := ignore s

/-- `WR` to an unmapped index, 0x0C to 0x0F (R103). -/
def execWrUnmapped0Cto0F (_a : Index) (_d : Data) (s : State) : Host.Outcome State Fault Refusal := ignore s

/-- `WR` to an unmapped index, 0x14 to 0x17 (R103). -/
def execWrUnmapped14to17 (_a : Index) (_d : Data) (s : State) : Host.Outcome State Fault Refusal := ignore s

/-- `WR` to an unmapped index, 0x18 to 0x1F (R103). -/
def execWrUnmapped18to1F (_a : Index) (_d : Data) (s : State) : Host.Outcome State Fault Refusal := ignore s

/-- `WR` to an unmapped index, 0x20 to 0x3F (R103). -/
def execWrUnmapped20to3F (_a : Index) (_d : Data) (s : State) : Host.Outcome State Fault Refusal := ignore s

/-- `WR` to an unmapped index, 0x40 to 0x7F (R103). -/
def execWrUnmapped40to7F (_a : Index) (_d : Data) (s : State) : Host.Outcome State Fault Refusal := ignore s

end Sys2Proof.Machine
end

