-- ==== Sys2Proof/Machine/IrCapture.lean ====
section
/-! DEFINITION. IRRX: the meaning of `IRTICK s` (`40_ir_capture.md`). -/

namespace Sys2Proof.Machine

/-- State IDLE (`40_ir_capture.md` R68): a mark starts a capture only after a gap of at least `GAP_TICKS`. -/
def irIdle (c : Config) (m : Bool) (t1 : Nat) (ir : Irrx) : Irrx :=
  if m then
    if t1 < c.gapTicks then { ir with timer := 0 }
    else record c t1 .mark { ir with rawlen := 0 }
  else { ir with timer := t1 }

/-- State MARK (R69): a space ends the mark and records its length. -/
def irMark (c : Config) (m : Bool) (t1 : Nat) (ir : Irrx) : Irrx :=
  if m then { ir with timer := t1 } else record c t1 .space ir

/-- State SPACE (R70): a mark records the space, whatever its length; a space longer than `GAP_TICKS` ends the frame
unrecorded, its timer running on. -/
def irSpace (c : Config) (m : Bool) (t1 : Nat) (ir : Irrx) : Irrx :=
  if m then record c t1 .mark ir
  else { ir with timer := t1, state := if c.gapTicks < t1 then .stop else .space }

/-- State STOP (R71): the frame is frozen; a mark restarts the gap timer. -/
def irStop (m : Bool) (t1 : Nat) (ir : Irrx) : Irrx :=
  if m then { ir with timer := 0 } else { ir with timer := t1 }

/-- One IR sample tick on IRRX (R64). -/
def irTick (c : Config) (s : Bool) (ir : Irrx) : Irrx :=
  let m := isMark s
  let t1 := satInc c ir.timer
  match ir.state with
  | .idle => irIdle c m t1 ir
  | .mark => irMark c m t1 ir
  | .space => irSpace c m t1 ir
  | .stop => irStop m t1 ir

/-- `IRTICK s` (R64). -/
def execIrtick (b : Bool) (s : State) : Host.Outcome State Fault Refusal := .next (s.withIr (irTick s.cfg b s.ir))

end Sys2Proof.Machine
end

