-- ==== Sys2Proof/Machine/PhasePwm.lean ====
section
/-! DEFINITION. PHPWM: the meaning of `PWMTICK` (`41_phase_pwm.md`). -/

namespace Sys2Proof.Machine

/-- This `PWMTICK` is a flip: it finds the count at `PHASE_TICKS` - 1, 127 here (R78). -/
def isFlip (c : Config) (p : Phpwm) : Bool := decide (p.cnt + 1 = c.phaseTicks)

/-- The phase p' after the tick (R78). -/
def nextPhase (c : Config) (p : Phpwm) : Phase := if isFlip c p then p.phase.other else p.phase

/-- The in-phase count c' after the tick, in `CNT_W` bits (R78). -/
def nextCnt (c : Config) (p : Phpwm) : Nat := if isFlip c p then 0 else trunc c.cntW (p.cnt + 1)

/-- The tick counter after the tick, modulo 2^`TKW` (R77). -/
def nextTicks (c : Config) (p : Phpwm) : Nat := trunc c.tkw (p.ticks + 1)

/-- The pins at the flip's `then-visible` point (R79, step 1). -/
def pinsThenVisible (c : Config) (p : Phpwm) : Pins := Pins.leave c (nextPhase c p) p.pin

/-- The pins before the duty comparison: step 2 of a flip, skipped under halt (R79, R81); outside a flip, as they were. -/
def pinsBeforeCompare (c : Config) (p : Phpwm) : Pins :=
  if isFlip c p then
    if p.halt then pinsThenVisible c p else Pins.enter c (nextPhase c p) (pinsThenVisible c p)
  else p.pin

/-- The pins after the tick: the duty comparison (R80), then halt over everything (R81). -/
def nextPins (c : Config) (p : Phpwm) : Pins :=
  if p.halt then Pins.allLow c
  else Pins.compare c (nextPhase c p) (levelAt p) (nextCnt c p) (pinsBeforeCompare c p)

/-- One PWM tick on PHPWM (R76). -/
def pwmTick (c : Config) (p : Phpwm) : Phpwm where
  phase := nextPhase c p
  cnt := nextCnt c p
  ticks := nextTicks c p
  halt := p.halt
  level := p.level
  pin := nextPins c p

/-- What the ports show in a `PWMTICK`: the tick event (`60_exceptions.md` R113), and on `ch_pin` the vector at
`then-visible` when it flips and the vector after it (R76, R79). -/
def pwmTickOut (c : Config) (p : Phpwm) : PortOut where
  hRdata := none
  tickEvt := true
  chPin := (if isFlip c p then [pinsThenVisible c p] else []) ++ [nextPins c p]

/-- `PWMTICK` (R76). -/
def execPwmtick (s : State) : Host.Outcome State Fault Refusal :=
  .next ((s.withPwm (pwmTick s.cfg s.pwm)).withOut (pwmTickOut s.cfg s.pwm))

end Sys2Proof.Machine
end

