-- ==== Sys2Proof/Machine/Dispatch.lean ====
section
/-! DEFINITION. One arm for each operation: its meaning. -/

namespace Sys2Proof.Machine

/-- What an operation does (`30_encoding.md` R58). -/
def exec (i : Instr) (s : State) : Host.Outcome State Fault Refusal :=
  match i with
  | .pwmtick => Sys2Proof.Machine.execPwmtick s
  | .irtick b => Sys2Proof.Machine.execIrtick b s
  | .reset => Sys2Proof.Machine.execReset s
  | .rdPwmCtrl => Sys2Proof.Machine.execRdPwmCtrl s
  | .wrPwmCtrl d => Sys2Proof.Machine.execWrPwmCtrl d s
  | .rdPwmPhase => Sys2Proof.Machine.execRdPwmPhase s
  | .rdPwmCnt => Sys2Proof.Machine.execRdPwmCnt s
  | .rdPwmTicks => Sys2Proof.Machine.execRdPwmTicks s
  | .rdPwmPins => Sys2Proof.Machine.execRdPwmPins s
  | .rdPwmLevel ch => Sys2Proof.Machine.execRdPwmLevel ch s
  | .wrPwmLevel ch d => Sys2Proof.Machine.execWrPwmLevel ch d s
  | .rdIrState => Sys2Proof.Machine.execRdIrState s
  | .rdIrCtrl => Sys2Proof.Machine.execRdIrCtrl s
  | .wrIrCtrl d => Sys2Proof.Machine.execWrIrCtrl d s
  | .rdIrTimer => Sys2Proof.Machine.execRdIrTimer s
  | .rdIrRawlen => Sys2Proof.Machine.execRdIrRawlen s
  | .rdIrRawbuf k => Sys2Proof.Machine.execRdIrRawbuf k s
  | .wrPwmPhase d => Sys2Proof.Machine.execWrPwmPhase d s
  | .wrPwmCnt d => Sys2Proof.Machine.execWrPwmCnt d s
  | .wrPwmTicks d => Sys2Proof.Machine.execWrPwmTicks d s
  | .wrPwmPins d => Sys2Proof.Machine.execWrPwmPins d s
  | .wrIrState d => Sys2Proof.Machine.execWrIrState d s
  | .wrIrTimer d => Sys2Proof.Machine.execWrIrTimer d s
  | .wrIrRawlen d => Sys2Proof.Machine.execWrIrRawlen d s
  | .wrIrRawbuf k d => Sys2Proof.Machine.execWrIrRawbuf k d s
  | .rdUnmapped05 a => Sys2Proof.Machine.execRdUnmapped05 a s
  | .rdUnmapped06to07 a => Sys2Proof.Machine.execRdUnmapped06to07 a s
  | .rdUnmapped0Cto0F a => Sys2Proof.Machine.execRdUnmapped0Cto0F a s
  | .rdUnmapped14to17 a => Sys2Proof.Machine.execRdUnmapped14to17 a s
  | .rdUnmapped18to1F a => Sys2Proof.Machine.execRdUnmapped18to1F a s
  | .rdUnmapped20to3F a => Sys2Proof.Machine.execRdUnmapped20to3F a s
  | .rdUnmapped40to7F a => Sys2Proof.Machine.execRdUnmapped40to7F a s
  | .wrUnmapped05 a d => Sys2Proof.Machine.execWrUnmapped05 a d s
  | .wrUnmapped06to07 a d => Sys2Proof.Machine.execWrUnmapped06to07 a d s
  | .wrUnmapped0Cto0F a d => Sys2Proof.Machine.execWrUnmapped0Cto0F a d s
  | .wrUnmapped14to17 a d => Sys2Proof.Machine.execWrUnmapped14to17 a d s
  | .wrUnmapped18to1F a d => Sys2Proof.Machine.execWrUnmapped18to1F a d s
  | .wrUnmapped20to3F a d => Sys2Proof.Machine.execWrUnmapped20to3F a d s
  | .wrUnmapped40to7F a d => Sys2Proof.Machine.execWrUnmapped40to7F a d s

end Sys2Proof.Machine
end

