-- ==== Sys2Proof/Machine/Fetch.lean ====
section
/-! DEFINITION. Where the next operation comes from: the environment's sequence of operation words (`00_scope.md` R8,
`93_implementation_defined.md` U10; log entry 1). The block itself fetches nothing (`10_state.md` R24). -/

namespace Sys2Proof.Machine

/-- The next word of the environment's sequence and the words after it, if the environment presents any. -/
def fetch (s : State) : Option (OpWord × List OpWord) :=
  match s.ops with
  | [] => none
  | w :: rest => some (w, rest)

/-- One step on what was fetched. The word leaves the sequence before its operation is performed. -/
def stepWith (s : State) (f : Option (OpWord × List OpWord)) : Host.Outcome State Fault Refusal :=
  match f with
  | none => .next (s.withOut (quiet s.pwm))
  | some (w, rest) =>
    match decode w with
    | .ok i => exec i (s.withOps rest)
    | .error e => .refused (.noOperation e)

/-- The environment presents the word `w` as its next operation, before all that is pending. -/
def presentWord (s : State) (w : OpWord) : State := s.withOps (w :: s.ops)

end Sys2Proof.Machine
end

