-- ==== Sys2Proof/Machine/Step.lean ====
section
/-! DEFINITION. One step of the machine: the next operation of the environment's sequence is performed
(`00_scope.md` R8, `20_memory.md` R43). -/

namespace Sys2Proof.Machine

/-- One step: the first pending word is decoded and its operation performed; a word that spells no operation is refused by
name (`30_encoding.md` R59); with nothing pending, no operation is performed and no state changes (R51). -/
def step (s : State) : Host.Outcome State Fault Refusal := stepWith s (fetch s)

/-- `s` with the operation whose low `nbits` bits are `w` presented as the very next one. -/
def State.withFetchWord (s : State) (nbits w : Nat) : State := presentWord s (BitVec.ofNat 42 (w % 2 ^ nbits))

end Sys2Proof.Machine
end

