-- ==== Sys2Proof/Machine/Flags.lean ====
section
/-! DEFINITION. The one flag, HALT, and the conditions a host reads off the state (`10_state.md` R25). There are no
condition codes and no sticky flag, so no operation computes one. -/

namespace Sys2Proof.Machine

/-- The HALT flag, read by every `PWMTICK` (`10_state.md` R25, R19). -/
def halted (s : State) : Bool := s.pwm.halt

/-- *frame ready* (`10_state.md` R25). -/
def frameReady (s : State) : Bool := decide (s.ir.state = .stop)

/-- *buffer overflowed* (`10_state.md` R25, `60_exceptions.md` R109). -/
def overflowed (s : State) : Bool := decide (s.ir.state = .stop ∧ s.ir.rawlen.toNat = s.cfg.cap)

end Sys2Proof.Machine
end

