-- ==== Sys2Proof/Machine/Ports.lean ====
section
/-! DEFINITION. The ports of the block and one `clk` cycle on them (`30_encoding.md` R50, R51; `20_memory.md` R46): which
operations a cycle performs and what the output ports show in it. The step takes operations one at a time and does not
need this file. -/

namespace Sys2Proof.Machine

/-- The input ports in one `clk` cycle (R50). -/
structure PortIn where
  rst : Bool
  pwmTick : Bool
  irTick : Bool
  irIn : Bool
  hSel : Bool
  hWe : Bool
  hAddr : Index
  hWdata : Data
deriving DecidableEq, Repr

/-- The operations a cycle performs, in order (R51): `RESET` and nothing else; otherwise the ticks, then the host
access. -/
def cycleWords (p : PortIn) : List OpWord :=
  if p.rst then [rstWord]
  else (if p.pwmTick then [evtWord false false] else [])
    ++ (if p.irTick then [evtWord p.irIn true] else [])
    ++ (if p.hSel then [if p.hWe then wrWord p.hAddr p.hWdata else rdWord p.hAddr] else [])

/-- The output ports over two successive parts of a cycle: `h_rdata` is the later valid one, `tick_evt` either,
and `ch_pin` shows both sequences. -/
def joinOut (a b : PortOut) : PortOut where
  hRdata := b.hRdata.or a.hRdata
  tickEvt := a.tickEvt || b.tickEvt
  chPin := a.chPin ++ b.chPin

/-- The words of a cycle performed in order; `acc` is what the ports have shown so far in the cycle, and the state's `out`
ends as what they showed in the whole cycle. -/
def performWords : List OpWord → State → PortOut → Host.Outcome State Fault Refusal
  | [], s, acc => .next (s.withOut acc)
  | w :: ws, s, acc =>
    match stepWith s (some (w, s.ops)) with
    | .next s' => performWords ws s' (joinOut acc s'.out)
    | .fault f => .fault f
    | .refused r => .refused r

/-- One `clk` cycle (R51). A cycle that performs no operation changes no state and leaves `ch_pin` as it is. -/
def cycle (p : PortIn) (s : State) : Host.Outcome State Fault Refusal :=
  match cycleWords p with
  | [] => .next (s.withOut (quiet s.pwm))
  | w :: ws => performWords (w :: ws) s ⟨none, false, []⟩

/-- The environment presents the operations of one cycle after all that is pending. -/
def presentCycle (p : PortIn) (s : State) : State := s.withOps (s.ops ++ cycleWords p)

end Sys2Proof.Machine
end

