-- ==== Sys2Proof/Machine/Runs.lean ====
section
/-! DEFINITION. Finite sequences of operations (`00_scope.md` R8) and the pseudo-operations that stand for them
(`30_encoding.md` R62). -/

namespace Sys2Proof.Machine

/-- The operations of a sequence performed in order, stopping at the first that does not go on
(`20_memory.md` R43). -/
def runOps : List Instr → State → Host.Outcome State Fault Refusal
  | [], s => .next s
  | i :: is, s =>
    match exec i s with
    | .next s' => runOps is s'
    | .fault f => .fault f
    | .refused r => .refused r

/-- The pseudo-operations (`30_encoding.md` R62). -/
inductive Pseudo where
  | pwmticks (n : Nat)
  | marks (n : Nat)
  | spaces (n : Nat)
  | resume
  | halt
  | unhalt
  | setlevel (i : Fin 4) (v : Data)
deriving DecidableEq, Repr

/-- The expansion of a pseudo-operation (R62). -/
def expandPseudo : Pseudo → List Instr
  | .pwmticks n => List.replicate n .pwmtick
  | .marks n => List.replicate n (.irtick false)
  | .spaces n => List.replicate n (.irtick true)
  | .resume => [.wrIrCtrl 1]
  | .halt => [.wrPwmCtrl 1]
  | .unhalt => [.wrPwmCtrl 0]
  | .setlevel i v => [.wrPwmLevel i v]

end Sys2Proof.Machine
end

