-- ==== Sys2Proof/Safety.lean ====
section
/-! DEFINITION. The terms in which claims are stated: what an operation leaves alone, what counts as a safe state
(the invariants R29 to R35 of `10_state.md`), and what a decoder may rely on in a frame. -/

namespace Sys2Proof.Safety

open Sys2Proof.Machine

/-! ### Frames -/

/-- Nothing but the output ports differs. -/
abbrev SameBlock (s t : State) : Prop :=
  t.cfg = s.cfg ∧ t.ir = s.ir ∧ t.pwm = s.pwm ∧ t.ops = s.ops ∧ t.draws = s.draws

/-- Nothing but IRRX and the output ports differs. -/
abbrev OnlyIr (s t : State) : Prop := t.cfg = s.cfg ∧ t.pwm = s.pwm ∧ t.ops = s.ops ∧ t.draws = s.draws

/-- Nothing but PHPWM and the output ports differs. -/
abbrev OnlyPwm (s t : State) : Prop := t.cfg = s.cfg ∧ t.ir = s.ir ∧ t.ops = s.ops ∧ t.draws = s.draws

/-- The operation is performed, its result is `v`, and it changes no state (`42_host_access.md` R86). -/
abbrev Returns (i : Instr) (s : State) (v : Data) : Prop :=
  ∃ t, exec i s = .next t ∧ t.out.hRdata = some v ∧ SameBlock s t

/-- The operation is performed, returns nothing and changes no state (`42_host_access.md` R101, R103). -/
abbrev HasNoEffect (i : Instr) (s : State) : Prop :=
  ∃ t, exec i s = .next t ∧ t.out.hRdata = none ∧ SameBlock s t

/-- No buffer entry but entry n differs, and the buffer keeps its size. -/
abbrev OnlyEntry (n : Nat) (ir ir' : Irrx) : Prop :=
  ir'.rawbuf.length = ir.rawbuf.length ∧ ∀ k, k ≠ n → irEntry ir' k = irEntry ir k

/-! ### Numbers the rules name -/

/-- `t1` of `40_ir_capture.md` R66: one more tick, saturating at `TMAX`. -/
def tickCount (s : State) : Nat := min (s.ir.timer + 1) s.cfg.tmax

/-- The level of the channel that drives pin j (`41_phase_pwm.md` R80). -/
def pinLevel (s : State) (j : Nat) : Nat := levelAt s.pwm (s.cfg.pinCh j)

/-- The count k has reached the level of pin j (R80); a level of `LEVEL_MAX` and above is never reached (log entry 15). -/
abbrev levelPassed (s : State) (j k : Nat) : Prop := pinLevel s j ≤ k ∧ pinLevel s j < s.cfg.levelMax

/-- The next `PWMTICK` is a flip: the count is `PHASE_TICKS` - 1 (R78). -/
abbrev atFlip (s : State) : Prop := s.pwm.cnt + 1 = s.cfg.phaseTicks

/-- An index of an unmapped register (`20_memory.md` R37). -/
abbrev Unmapped (a : Index) : Prop :=
  (0x05 ≤ a.toNat ∧ a.toNat ≤ 0x07) ∨ (0x0C ≤ a.toNat ∧ a.toNat ≤ 0x0F) ∨ (0x14 ≤ a.toNat ∧ a.toNat ≤ 0x7F)

/-- An index of a read-only register (`42_host_access.md` R101). -/
abbrev ReadOnly (a : Index) : Prop :=
  (0x01 ≤ a.toNat ∧ a.toNat ≤ 0x04) ∨ a = 0x10 ∨ a = 0x12 ∨ a = 0x13 ∨ 0x80 ≤ a.toNat

/-- The number of implemented low bits of the register at an index; 0 where no register is (`10_state.md` R22; for the level
indices past `N_CH`, log entry 3). -/
def implementedWidth (c : Config) (a : Index) : Nat :=
  if a = 0x00 ∨ a = 0x01 ∨ a = 0x11 then 1
  else if a = 0x02 then c.cntW
  else if a = 0x03 then c.tkw
  else if a = 0x04 then c.nPin
  else if 0x08 ≤ a.toNat ∧ a.toNat ≤ 0x0B then (if (channelOf a).val < c.nCh then c.levelW else 0)
  else if a = 0x10 then 2
  else if a = 0x12 then c.tw
  else if a = 0x13 then 8
  else if 0x80 ≤ a.toNat then c.tw
  else 0

/-! ### Invariants -/

/-- The shape of an IRRX state: the buffer has `CAP` entries of `TW` bits, the timer is at most `TMAX` (R12, R14), and the
length fits the capture state (R29, R30). -/
abbrev irShape (c : Config) (ir : Irrx) : Prop :=
  ir.rawbuf.length = c.cap ∧ (∀ d ∈ ir.rawbuf, d < 2 ^ c.tw) ∧ ir.timer ≤ c.tmax ∧ ir.rawlen.toNat ≤ c.cap ∧
  (ir.state = .idle → ir.rawlen.toNat = 0) ∧
  (ir.state = .mark → ir.rawlen.toNat % 2 = 1 ∧ ir.rawlen.toNat < c.cap) ∧
  (ir.state = .space → ir.rawlen.toNat % 2 = 0 ∧ 2 ≤ ir.rawlen.toNat ∧ ir.rawlen.toNat < c.cap) ∧
  (ir.state = .stop → ir.rawlen.toNat = c.cap ∨ ir.rawlen.toNat % 2 = 0 ∧ 2 ≤ ir.rawlen.toNat)

/-- Every asserted pin is a pin of phase `p` (R33). -/
abbrev onlyPhase (c : Config) (p : Phase) (v : Pins) : Prop := ∀ j < c.nPin, Pins.get v j = true → c.pinPh j = p

/-- No pin of phase A is asserted together with a pin of phase B (R33, `41_phase_pwm.md` R84). -/
abbrev neverBoth (c : Config) (v : Pins) : Prop := onlyPhase c .A v ∨ onlyPhase c .B v

/-- Every pin is de-asserted. -/
abbrev allLow (v : Pins) : Prop := ∀ b ∈ v, b = false

/-- The shape of a PHPWM state: the count is below `PHASE_TICKS` (R32), the tick counter has `TKW` bits (R18), there are
`N_CH` levels of `LEVEL_W` bits (R20) and `N_PIN` latches (R21), asserted pins are of the current phase (R33), and under
halt there is none (R34). -/
abbrev pwmShape (c : Config) (p : Phpwm) : Prop :=
  p.cnt < c.phaseTicks ∧ p.ticks < 2 ^ c.tkw ∧ p.level.length = c.nCh ∧ (∀ l ∈ p.level, l < 2 ^ c.levelW) ∧
  p.pin.length = c.nPin ∧ onlyPhase c p.phase p.pin ∧ (p.halt = true → allLow p.pin)

/-- The invariant of the machine: a legal configuration (`00_scope.md` R5, log entry 3) and R29 to R34. -/
abbrev MachineInv (s : State) : Prop := s.cfg.wf ∧ irShape s.cfg s.ir ∧ pwmShape s.cfg s.pwm

/-- The relation of the three PWM counters that holds counted from `RESET` (R35): with `PHASE_TICKS` = 128, `PWM_CNT` is
`PWM_TICKS[6:0]` and `PWM_PHASE` is `PWM_TICKS[7]`. -/
abbrev CountersInStep (c : Config) (p : Phpwm) : Prop :=
  p.cnt = p.ticks % c.phaseTicks ∧ (phaseCode p.phase).toNat = p.ticks / c.phaseTicks % 2

/-- What a decoder may rely on in the entries of the frame so far (`70_reset_and_hazards.md` R128 (a), (c)): entry 0 is a
gap of at least `GAP_TICKS`, and every entry is a count of at least one tick. -/
abbrev frameContract (c : Config) (ir : Irrx) : Prop :=
  (0 < ir.rawlen.toNat → c.gapTicks ≤ irEntry ir 0) ∧ ∀ k < ir.rawlen.toNat, 1 ≤ irEntry ir k

/-- The edges along which `IR_STATE` changes (R31, MARK to STOP among them by overflow, `90_conflicts.md` C3), or it
stays. -/
def irEdge : IrState → IrState → Bool
  | .idle, .mark | .mark, .space | .space, .mark | .space, .stop | .mark, .stop | .stop, .idle => true
  | x, y => decide (x = y)

/-- The host's writes that take IRRX out of STOP, or the whole block to reset: RESUME and `RESET`
(`70_reset_and_hazards.md` R127). -/
def endsFrame : Instr → Bool
  | .reset => true
  | .wrIrCtrl d => d.getLsbD 0
  | _ => false

end Sys2Proof.Safety
end

