-- ==== Sys2Proof/Certificates/Slice0/Obligations.lean ====
section
/-! DEFINITION. The statements about the model, for the provers. Each docstring names the rule it formalises. -/

open Sys2Proof Sys2Proof.Machine Sys2Proof.Safety

/-! ## Encoding -/

/-- `30_encoding.md` sections 2 and 4: decoding the canonical word of a well-formed operation gives it back, with every
operand. -/
def Obligations.DecodeOfEncode : Prop :=
  ∀ i : Instr, i.wellFormed = true → decode (encode i) = .ok i

/-- `30_encoding.md` section 2: a word that spells an operation is that operation's canonical word, and the operation is
well formed; so no operation has two spellings. -/
def Obligations.EncodeOfDecode : Prop :=
  ∀ (w : OpWord) (i : Instr), decode w = .ok i → i.wellFormed = true ∧ encode i = w

/-- `30_encoding.md` R53, R54, R55, R56: the words of the four formats, as numbers. -/
def Obligations.WordFormats : Prop :=
  (encode .pwmtick = 0x20000000000 ∧ encode (.irtick false) = 0x20100000000 ∧
    encode (.irtick true) = 0x20300000000 ∧ encode .reset = 0x30000000000) ∧
  (∀ a : Index, (rdWord a).toNat = a.toNat * 2 ^ 32) ∧
  ∀ (a : Index) (d : Data), (wrWord a d).toNat = 2 ^ 40 + a.toNat * 2 ^ 32 + d.toNat

/-- `30_encoding.md` section 4: a word the decoder reads fits the row of spec/opcode_table.json of the operation it is
read as, and no other row. -/
def Obligations.DecoderFollowsOperationMap : Prop :=
  ∀ (w : OpWord) (i : Instr), decode w = .ok i →
    ∀ j : Instr, w &&& (opRow j).mask = (opRow j).pattern ↔ opRow j = opRow i

/-- `30_encoding.md` R59: the words that spell no operation are exactly (a), (b) and (c), and a trace that goes on with
one is refused (the trace is the state's field `ops`, log entry 1). -/
def Obligations.InvalidWordsAreRefused : Prop :=
  (∀ w : OpWord, (∃ e, decode w = .error e) ↔
    (w.extractLsb' 40 2 = 2 ∧
      (w.extractLsb' 34 6 ≠ 0 ∨ (w.getLsbD 32 = false ∧ w.getLsbD 33 = true) ∨ w.extractLsb' 0 32 ≠ 0)) ∨
    (w.extractLsb' 40 2 = 0 ∧ w.extractLsb' 0 32 ≠ 0) ∨
    (w.extractLsb' 40 2 = 3 ∧ (w.extractLsb' 32 8 ≠ 0 ∨ w.extractLsb' 0 32 ≠ 0))) ∧
  ∀ (s : State) (w : OpWord) (rest : List OpWord), s.ops = w :: rest → (∃ e, decode w = .error e) →
    ∃ e, step s = .refused (.noOperation e)

/-- `95_test_vectors.md` V24: words written out from the formats of `30_encoding.md` decode to what they stand for. -/
def Obligations.SpelledWordsDecode : Prop :=
  decode 0x20000000000 = .ok .pwmtick ∧
  decode 0x20100000000 = .ok (.irtick false) ∧
  decode 0x20300000000 = .ok (.irtick true) ∧
  decode 0x30000000000 = .ok .reset ∧
  decode 0x00300000000 = .ok .rdPwmTicks ∧
  decode 0x10900000040 = .ok (.wrPwmLevel 1 64) ∧
  decode 0x109FFFFFF40 = .ok (.wrPwmLevel 1 0xFFFFFF40) ∧
  decode 0x11100000001 = .ok (.wrIrCtrl 1) ∧
  decode 0x0E300000000 = .ok (.rdIrRawbuf 99) ∧
  decode 0x1FF0000ABCD = .ok (.wrIrRawbuf 127 0xABCD) ∧
  decode 0x00500000000 = .ok (.rdUnmapped05 0x05) ∧
  decode 0x17F00000001 = .ok (.wrUnmapped40to7F 0x7F 1) ∧
  decode 0x1020000004D = .ok (.wrPwmCnt 77)

/-! ## The step -/

/-- `00_scope.md` section 4 and log entry 1 (the model's choice of where a run's operations stand): when the next word decodes,
the step is the meaning of that operation, the word having left the sequence; and `withFetchWord` presents a word so. -/
def Obligations.StepPerformsDecodedOperation : Prop :=
  (∀ (s : State) (w : OpWord) (rest : List OpWord) (i : Instr), s.ops = w :: rest → decode w = .ok i →
    step s = exec i (s.withOps rest)) ∧
  ∀ (s : State) (nbits n : Nat) (i : Instr), decodeTableWord nbits n = some i →
    step (s.withFetchWord nbits n) = exec i s

/-- `30_encoding.md` section 1 (a cycle with none of the inputs high); that the step goes on with no operation presented
is the model's choice (log entry 1): it changes no state. -/
def Obligations.IdleStepChangesNothing : Prop :=
  ∀ s : State, s.ops = [] →
    ∃ t, step s = .next t ∧ SameBlock s t ∧ t.out.hRdata = none ∧ t.out.tickEvt = false

/-- `60_exceptions.md` R107: every operation is total. -/
def Obligations.EveryOperationIsTotal : Prop := ∀ (i : Instr) (s : State), ∃ t, exec i s = .next t

/-! ## Host reads -/

/-- `42_host_access.md` R87, R89, R90, R91. -/
def Obligations.PwmRegisterReads : Prop :=
  (decode 0x00000000000 = .ok .rdPwmCtrl ∧ decode 0x00100000000 = .ok .rdPwmPhase ∧
    decode 0x00200000000 = .ok .rdPwmCnt ∧ decode 0x00300000000 = .ok .rdPwmTicks) ∧
  ∀ s : State,
    Returns .rdPwmCtrl s (if s.pwm.halt then 1 else 0) ∧
    Returns .rdPwmPhase s (if s.pwm.phase = .A then 0 else 1) ∧
    Returns .rdPwmCnt s (BitVec.ofNat 32 s.pwm.cnt) ∧
    Returns .rdPwmTicks s (BitVec.ofNat 32 s.pwm.ticks)

/-- `42_host_access.md` R92: bit j is pin j for j < `N_PIN`, every other bit 0. -/
def Obligations.PinsRead : Prop :=
  decode 0x00400000000 = .ok .rdPwmPins ∧ ∀ s : State, ∃ v : Data, Returns .rdPwmPins s v ∧
    ∀ j < 32, v.getLsbD j = (decide (j < s.cfg.nPin) && Pins.get s.pwm.pin j)

/-- `42_host_access.md` R93: a level reads back as written, all of its bits, at the index of every channel
(i < `N_CH`, 4 here). -/
def Obligations.LevelReadsAsWritten : Prop :=
  (∀ i : Fin 4, decode (0x00800000000 ||| BitVec.ofNat 42 i.val <<< 32) = .ok (.rdPwmLevel i)) ∧
  (∀ (s : State) (i : Fin 4), i.val < s.cfg.nCh →
    Returns (.rdPwmLevel i) s (BitVec.ofNat 32 (levelAt s.pwm i.val))) ∧
  ∀ (s : State) (i : Fin 4) (d : Data), MachineInv s → i.val < s.cfg.nCh →
    ∃ t, exec (.wrPwmLevel i d) s = .next t ∧
      Returns (.rdPwmLevel i) t (BitVec.ofNat 32 (d.toNat % 2 ^ s.cfg.levelW)) ∧
      ∀ j : Fin 4, j ≠ i → j.val < s.cfg.nCh → Returns (.rdPwmLevel j) t (BitVec.ofNat 32 (levelAt s.pwm j.val))

/-- `42_host_access.md` R95, R96, R98, R99. -/
def Obligations.IrRegisterReads : Prop :=
  (decode 0x01000000000 = .ok .rdIrState ∧ decode 0x01100000000 = .ok .rdIrCtrl ∧
    decode 0x01200000000 = .ok .rdIrTimer ∧ decode 0x01300000000 = .ok .rdIrRawlen) ∧
  ∀ s : State,
    Returns .rdIrState s
      (match s.ir.state with | .idle => 0 | .mark => 1 | .space => 2 | .stop => 3) ∧
    Returns .rdIrCtrl s 0 ∧
    Returns .rdIrTimer s (BitVec.ofNat 32 s.ir.timer) ∧
    Returns .rdIrRawlen s (BitVec.ofNat 32 s.ir.rawlen.toNat)

/-- `42_host_access.md` R100: every entry k < `CAP` reads as it is held, in every state; entries from `CAP` on read 0. -/
def Obligations.BufferReads : Prop :=
  (∀ k : Fin 128, decode (0x08000000000 ||| BitVec.ofNat 42 k.val <<< 32) = .ok (.rdIrRawbuf k)) ∧
  ∀ (s : State) (k : Fin 128),
    (k.val < s.cfg.cap → Returns (.rdIrRawbuf k) s (BitVec.ofNat 32 (irEntry s.ir k.val))) ∧
    (s.cfg.cap ≤ k.val → Returns (.rdIrRawbuf k) s 0)

/-- `42_host_access.md` R102: a read of an unmapped index gives 0 and changes nothing. -/
def Obligations.UnmappedReadsGiveZero : Prop :=
  (∀ (s : State) (a : Index),
    Returns (.rdUnmapped05 a) s 0 ∧ Returns (.rdUnmapped06to07 a) s 0 ∧ Returns (.rdUnmapped0Cto0F a) s 0 ∧
    Returns (.rdUnmapped14to17 a) s 0 ∧ Returns (.rdUnmapped18to1F a) s 0 ∧ Returns (.rdUnmapped20to3F a) s 0 ∧
    Returns (.rdUnmapped40to7F a) s 0) ∧
  ∀ (s : State) (a : Index), Unmapped a → ∃ i, decode (rdWord a) = .ok i ∧ Returns i s 0

/-- `42_host_access.md` R86: a `RD` of any of the 256 indices returns `RegRead` of it and changes no state; a `WR` of any
index performs `RegWrite` and returns nothing. -/
def Obligations.EveryAccessIsRegReadOrRegWrite : Prop :=
  (∀ (a : Index) (s : State), ∃ i, decode (rdWord a) = .ok i ∧ Returns i s (regRead a s)) ∧
  ∀ (a : Index) (d : Data) (s : State), ∃ i,
    decode (wrWord a d) = .ok i ∧ exec i s = .next (regWrite a d s) ∧ (regWrite a d s).out.hRdata = none

/-! ## Host writes -/

/-- `42_host_access.md` R88: HALT takes `d[0]`; setting it clears every pin in the same operation; clearing it writes the
flag only; nothing else changes; setting it when set, or clearing it when clear, changes nothing. -/
def Obligations.HaltWrite : Prop :=
  (∀ d : Data, decode (0x10000000000 ||| d.setWidth 42) = .ok (.wrPwmCtrl d)) ∧
  ∀ (s : State) (d : Data), ∃ t, exec (.wrPwmCtrl d) s = .next t ∧ OnlyPwm s t ∧
    t.pwm.halt = d.getLsbD 0 ∧
    (d.getLsbD 0 = true → allLow t.pwm.pin ∧ t.pwm.pin.length = s.cfg.nPin ∧ t.out.chPin = [t.pwm.pin]) ∧
    (d.getLsbD 0 = false → t.pwm.pin = s.pwm.pin) ∧
    t.pwm.phase = s.pwm.phase ∧ t.pwm.cnt = s.pwm.cnt ∧ t.pwm.ticks = s.pwm.ticks ∧ t.pwm.level = s.pwm.level ∧
    (MachineInv s → s.pwm.halt = d.getLsbD 0 → t.pwm = s.pwm)

/-- `42_host_access.md` R94: that level takes the low `LEVEL_W` bits of d, `d[7:0]` here; no other level, no pin and nothing
else changes. The level is that of a channel, i < `N_CH`, 4 here. -/
def Obligations.LevelWrite : Prop :=
  (∀ (i : Fin 4) (d : Data),
    decode (0x10800000000 ||| BitVec.ofNat 42 i.val <<< 32 ||| d.setWidth 42) = .ok (.wrPwmLevel i d)) ∧
  ∀ (s : State) (i : Fin 4) (d : Data), ∃ t, exec (.wrPwmLevel i d) s = .next t ∧ OnlyPwm s t ∧
    (MachineInv s → i.val < s.cfg.nCh → t.pwm.level.length = s.cfg.nCh ∧
      ∀ j < s.cfg.nCh, levelAt t.pwm j = if j = i.val then d.toNat % 2 ^ s.cfg.levelW else levelAt s.pwm j) ∧
    t.pwm.pin = s.pwm.pin ∧ t.pwm.halt = s.pwm.halt ∧ t.pwm.phase = s.pwm.phase ∧ t.pwm.cnt = s.pwm.cnt ∧
    t.pwm.ticks = s.pwm.ticks

/-- `42_host_access.md` R97: RESUME leaves STOP for IDLE and clears the length; outside STOP, or with `d[0]` = 0, nothing
changes; timer and entries are kept in any case. -/
def Obligations.ResumeCommand : Prop :=
  (∀ d : Data, decode (0x11100000000 ||| d.setWidth 42) = .ok (.wrIrCtrl d)) ∧
  ∀ (s : State) (d : Data), ∃ t, exec (.wrIrCtrl d) s = .next t ∧ OnlyIr s t ∧
    t.ir.timer = s.ir.timer ∧ t.ir.rawbuf = s.ir.rawbuf ∧
    (d.getLsbD 0 = true ∧ s.ir.state = .stop → t.ir.state = .idle ∧ t.ir.rawlen = 0) ∧
    (¬(d.getLsbD 0 = true ∧ s.ir.state = .stop) → t.ir = s.ir)

/-- `42_host_access.md` R101: a `WR` to a read-only register has no effect on any state. -/
def Obligations.ReadOnlyWritesHaveNoEffect : Prop :=
  (∀ (s : State) (k : Fin 128) (d : Data),
    HasNoEffect (.wrPwmPhase d) s ∧ HasNoEffect (.wrPwmCnt d) s ∧ HasNoEffect (.wrPwmTicks d) s ∧
    HasNoEffect (.wrPwmPins d) s ∧ HasNoEffect (.wrIrState d) s ∧ HasNoEffect (.wrIrTimer d) s ∧
    HasNoEffect (.wrIrRawlen d) s ∧ HasNoEffect (.wrIrRawbuf k d) s) ∧
  ∀ (s : State) (a : Index) (d : Data), ReadOnly a → ∃ i, decode (wrWord a d) = .ok i ∧ HasNoEffect i s

/-- `42_host_access.md` R103: a `WR` to an unmapped index has no effect. -/
def Obligations.UnmappedWritesHaveNoEffect : Prop :=
  (∀ (s : State) (a : Index) (d : Data),
    HasNoEffect (.wrUnmapped05 a d) s ∧ HasNoEffect (.wrUnmapped06to07 a d) s ∧
    HasNoEffect (.wrUnmapped0Cto0F a d) s ∧ HasNoEffect (.wrUnmapped14to17 a d) s ∧
    HasNoEffect (.wrUnmapped18to1F a d) s ∧ HasNoEffect (.wrUnmapped20to3F a d) s ∧
    HasNoEffect (.wrUnmapped40to7F a d) s) ∧
  ∀ (s : State) (a : Index) (d : Data), Unmapped a → ∃ i, decode (wrWord a d) = .ok i ∧ HasNoEffect i s

/-- `42_host_access.md` section 4: at every index the bits above the implemented width read 0, and two writes that differ
only in them have the same effect. The width of a register is that of R105; an index of no register has width 0, after
R102 and R103 where it is unmapped. That a level index past `N_CH` is one too is the model's choice (log entry 3); here
`N_CH` is 4 and there is none. -/
def Obligations.ReservedBitsHaveNoEffect : Prop :=
  (∀ (s : State) (a : Index), MachineInv s → ∃ i v, decode (rdWord a) = .ok i ∧ Returns i s v ∧
    ∀ n, implementedWidth s.cfg a ≤ n → v.getLsbD n = false) ∧
  ∀ (s : State) (a : Index) (d e : Data),
    (∀ n < implementedWidth s.cfg a, d.getLsbD n = e.getLsbD n) →
    ∃ i j t, decode (wrWord a d) = .ok i ∧ decode (wrWord a e) = .ok j ∧ exec i s = .next t ∧ exec j s = .next t

/-- `20_memory.md` section 2: writing the same value twice equals writing it once. -/
def Obligations.WritesAreIdempotent : Prop :=
  ∀ (s : State) (i : Fin 4) (d : Data),
    runOps [.wrPwmCtrl d, .wrPwmCtrl d] s = runOps [.wrPwmCtrl d] s ∧
    runOps [.wrPwmLevel i d, .wrPwmLevel i d] s = runOps [.wrPwmLevel i d] s ∧
    runOps [.wrIrCtrl d, .wrIrCtrl d] s = runOps [.wrIrCtrl d] s

/-! ## RESET -/

/-- `42_host_access.md` R104 with the table of `10_state.md` R28: every state element takes its reset value, from any
state; of the entries, which become unspecified, nothing is said but how many there are. No other operation clears the
three PWM counters but by the tick, nor the IR timer but by the tick. -/
def Obligations.ResetOperation : Prop :=
  decode 0x30000000000 = .ok .reset ∧
  (∀ (i : Instr) (s t : State), i ≠ .reset → exec i s = .next t →
    (i ≠ .pwmtick → t.pwm.ticks = s.pwm.ticks ∧ t.pwm.cnt = s.pwm.cnt ∧ t.pwm.phase = s.pwm.phase) ∧
    ((∀ b, i ≠ .irtick b) → t.ir.timer = s.ir.timer)) ∧
  ∀ s : State, ∃ t, exec .reset s = .next t ∧ t.cfg = s.cfg ∧ t.ops = s.ops ∧
    t.ir.state = .idle ∧ t.ir.timer = 0 ∧ t.ir.rawlen = 0 ∧ t.ir.rawbuf.length = s.cfg.cap ∧
    t.pwm.phase = .A ∧ t.pwm.cnt = 0 ∧ t.pwm.ticks = 0 ∧ t.pwm.halt = false ∧
    t.pwm.level.length = s.cfg.nCh ∧ (∀ l ∈ t.pwm.level, l = 0) ∧ t.pwm.pin.length = s.cfg.nPin ∧ allLow t.pwm.pin

/-- `10_state.md` R28: the state after reset. -/
def Obligations.ResetState : Prop :=
  State.reset.ir.state = .idle ∧ State.reset.ir.timer = 0 ∧ State.reset.ir.rawlen = 0 ∧
  State.reset.pwm.phase = .A ∧ State.reset.pwm.cnt = 0 ∧ State.reset.pwm.ticks = 0 ∧ State.reset.pwm.halt = false ∧
  State.reset.pwm.level = [0, 0, 0, 0] ∧ allLow State.reset.pwm.pin

/-! ## IRRX -/

/-- `40_ir_capture.md` R68: the IR tick in IDLE. -/
def Obligations.SampleInIdle : Prop :=
  ∀ (s : State) (b : Bool), MachineInv s → s.ir.state = .idle → ∃ t, exec (.irtick b) s = .next t ∧ OnlyIr s t ∧
    (b = true → t.ir.timer = tickCount s ∧
      t.ir.state = .idle ∧ t.ir.rawlen = s.ir.rawlen ∧ t.ir.rawbuf = s.ir.rawbuf) ∧
    (b = false → tickCount s < s.cfg.gapTicks → t.ir.timer = 0 ∧
      t.ir.state = .idle ∧ t.ir.rawlen = s.ir.rawlen ∧ t.ir.rawbuf = s.ir.rawbuf) ∧
    (b = false → s.cfg.gapTicks ≤ tickCount s → t.ir.timer = 0 ∧
      t.ir.state = .mark ∧ t.ir.rawlen = 1 ∧ irEntry t.ir 0 = tickCount s ∧ OnlyEntry 0 s.ir t.ir)

/-- `40_ir_capture.md` R69, with the overflow of R67: the IR tick in MARK. -/
def Obligations.SampleInMark : Prop :=
  ∀ (s : State) (b : Bool), MachineInv s → s.ir.state = .mark → ∃ t, exec (.irtick b) s = .next t ∧ OnlyIr s t ∧
    (b = false → t.ir.timer = tickCount s ∧
      t.ir.state = .mark ∧ t.ir.rawlen = s.ir.rawlen ∧ t.ir.rawbuf = s.ir.rawbuf) ∧
    (b = true → t.ir.timer = 0 ∧
      t.ir.state = (if s.ir.rawlen.toNat + 1 = s.cfg.cap then .stop else .space) ∧
      t.ir.rawlen.toNat = s.ir.rawlen.toNat + 1 ∧
      irEntry t.ir s.ir.rawlen.toNat = tickCount s ∧ OnlyEntry s.ir.rawlen.toNat s.ir t.ir)

/-- `40_ir_capture.md` R70, with the overflow of R67: the IR tick in SPACE. A mark is recorded whatever the space's
length; the space that ends the frame is not. -/
def Obligations.SampleInSpace : Prop :=
  ∀ (s : State) (b : Bool), MachineInv s → s.ir.state = .space → ∃ t, exec (.irtick b) s = .next t ∧ OnlyIr s t ∧
    (b = false → t.ir.timer = 0 ∧
      t.ir.state = (if s.ir.rawlen.toNat + 1 = s.cfg.cap then .stop else .mark) ∧
      t.ir.rawlen.toNat = s.ir.rawlen.toNat + 1 ∧
      irEntry t.ir s.ir.rawlen.toNat = tickCount s ∧ OnlyEntry s.ir.rawlen.toNat s.ir t.ir) ∧
    (b = true → t.ir.timer = tickCount s ∧
      t.ir.state = (if s.cfg.gapTicks < tickCount s then .stop else .space) ∧
      t.ir.rawlen = s.ir.rawlen ∧ t.ir.rawbuf = s.ir.rawbuf)

/-- `40_ir_capture.md` R71: in STOP a tick writes the timer alone, no sequence of IR ticks leaves STOP or alters the
frozen frame, and the only exit, but for `RESET`, is RESUME. -/
def Obligations.SamplesInStop : Prop :=
  (∀ (i : Instr) (s t : State), s.ir.state = .stop → exec i s = .next t → t.ir.state ≠ .stop →
    i = .reset ∨ ∃ d : Data, i = .wrIrCtrl d ∧ d.getLsbD 0 = true) ∧
  (∀ (s : State) (b : Bool), s.ir.state = .stop → ∃ t, exec (.irtick b) s = .next t ∧ OnlyIr s t ∧
    t.ir.timer = (if b then tickCount s else 0) ∧
    t.ir.state = .stop ∧ t.ir.rawlen = s.ir.rawlen ∧ t.ir.rawbuf = s.ir.rawbuf) ∧
  ∀ (s : State) (bs : List Bool), s.ir.state = .stop → ∃ t, runOps (bs.map .irtick) s = .next t ∧ OnlyIr s t ∧
    t.ir.state = .stop ∧ t.ir.rawlen = s.ir.rawlen ∧ t.ir.rawbuf = s.ir.rawbuf

/-- `70_reset_and_hazards.md` section 3: in STOP the state, the length and every entry are constant under every sequence of
operations of every agent that holds no RESUME and no `RESET`. -/
def Obligations.FrameIsFrozenUntilResume : Prop :=
  ∀ (is : List Instr) (s : State), (∀ i ∈ is, endsFrame i = false) → s.ir.state = .stop →
    ∃ t, runOps is s = .next t ∧ t.ir.state = .stop ∧ t.ir.rawlen = s.ir.rawlen ∧ t.ir.rawbuf = s.ir.rawbuf

/-- `40_ir_capture.md` section 3: a mark that a record began and that n more samples continue is recorded as n + 1,
saturating. -/
def Obligations.MarkOfManyTicksIsRecorded : Prop :=
  ∀ (s : State) (n : Nat), MachineInv s → s.ir.state = .mark → s.ir.timer = 0 →
    ∃ t, runOps (List.replicate n (.irtick false) ++ [.irtick true]) s = .next t ∧ OnlyIr s t ∧
      irEntry t.ir s.ir.rawlen.toNat = min (n + 1) s.cfg.tmax ∧
      t.ir.rawlen.toNat = s.ir.rawlen.toNat + 1 ∧ t.ir.timer = 0

/-- `40_ir_capture.md` section 3: a space inside a frame that a record began and that n more samples continue is recorded
as n + 1 by the mark that ends it, for every n that does not end the frame. -/
def Obligations.SpaceOfManyTicksIsRecorded : Prop :=
  ∀ (s : State) (n : Nat), MachineInv s → s.ir.state = .space → s.ir.timer = 0 → n ≤ s.cfg.gapTicks →
    ∃ t, runOps (List.replicate n (.irtick true) ++ [.irtick false]) s = .next t ∧ OnlyIr s t ∧
      irEntry t.ir s.ir.rawlen.toNat = n + 1 ∧
      t.ir.rawlen.toNat = s.ir.rawlen.toNat + 1 ∧ t.ir.timer = 0

/-- `40_ir_capture.md` section 3: the space that ends a frame reaches STOP at its (`GAP_TICKS` + 2)-th sample, the first
of which is the record's; it is not recorded and its timer runs on. -/
def Obligations.FrameEndsAfterGap : Prop :=
  ∀ (s : State) (n : Nat), s.cfg.wf → s.ir.state = .space → s.ir.timer = 0 →
    ∃ t, runOps (List.replicate n (.irtick true)) s = .next t ∧ OnlyIr s t ∧
      t.ir.state = (if n ≤ s.cfg.gapTicks then .space else .stop) ∧
      t.ir.timer = min n s.cfg.tmax ∧ t.ir.rawlen = s.ir.rawlen ∧ t.ir.rawbuf = s.ir.rawbuf

/-- `70_reset_and_hazards.md` section 1 and `40_ir_capture.md` section 3: from IDLE with the timer at 0, as after `RESET`,
n spaces and then a mark start a capture exactly when n >= `GAP_TICKS` - 1, and entry 0 is then n + 1, saturating. -/
def Obligations.CaptureStartsAfterLeadingGap : Prop :=
  ∀ (s : State) (n : Nat), MachineInv s → s.ir.state = .idle → s.ir.timer = 0 →
    ∃ t, runOps (List.replicate n (.irtick true) ++ [.irtick false]) s = .next t ∧ OnlyIr s t ∧ t.ir.timer = 0 ∧
      (n + 1 < s.cfg.gapTicks → t.ir.state = .idle ∧ t.ir.rawlen = s.ir.rawlen ∧ t.ir.rawbuf = s.ir.rawbuf) ∧
      (s.cfg.gapTicks ≤ n + 1 → t.ir.state = .mark ∧ t.ir.rawlen = 1 ∧
        irEntry t.ir 0 = min (n + 1) s.cfg.tmax)

/-- `40_ir_capture.md` section 3: with an even `CAP` the record that fills the buffer is made in MARK on a space sample,
and takes MARK directly to STOP with the timer at 0. -/
def Obligations.OverflowComesFromMark : Prop :=
  ∀ (s : State) (b : Bool), MachineInv s → s.cfg.cap % 2 = 0 → s.ir.state ≠ .stop →
    ∃ t, exec (.irtick b) s = .next t ∧
      (t.ir.rawlen.toNat = s.cfg.cap → s.ir.state = .mark ∧ b = true ∧ t.ir.state = .stop ∧ t.ir.timer = 0)

/-- `10_state.md` R31: `IR_STATE` changes only along the edges of the rule; MARK to STOP only by overflow, STOP to IDLE
only by RESUME. (`RESET` alone takes every state to IDLE.) -/
def Obligations.CaptureStateEdges : Prop :=
  ∀ (i : Instr) (s t : State), MachineInv s → i ≠ .reset → exec i s = .next t →
    irEdge s.ir.state t.ir.state = true ∧
    (s.ir.state = .mark → t.ir.state = .stop → t.ir.rawlen.toNat = s.cfg.cap) ∧
    (s.ir.state = .stop → t.ir.state = .idle → ∃ d : Data, i = .wrIrCtrl d ∧ d.getLsbD 0 = true)

/-- `10_state.md` section 2 (`IR_RAWBUF`): an entry changes only by a record of an IR tick outside STOP, which is at the
index `IR_RAWLEN` (0 when the capture starts), below `CAP`, and holds the tick count. -/
def Obligations.EntriesChangeOnlyByRecord : Prop :=
  ∀ (i : Instr) (s t : State) (k : Nat), MachineInv s → i ≠ .reset → exec i s = .next t → irEntry t.ir k ≠ irEntry s.ir k →
    (∃ b, i = .irtick b) ∧ s.ir.state ≠ .stop ∧ k = s.ir.rawlen.toNat ∧ k < s.cfg.cap ∧
    irEntry t.ir k = tickCount s

/-- `70_reset_and_hazards.md` section 3 (the contract with the decoder, (a) and (c)): it holds at reset and every step
keeps it. -/
def Obligations.FrameContractIsKept : Prop :=
  frameContract State.reset.cfg State.reset.ir ∧
  ∀ s t : State, MachineInv s → frameContract s.cfg s.ir → step s = .next t → frameContract t.cfg t.ir

/-! ## PHPWM -/

/-- `41_phase_pwm.md` R77, R78: the tick counter, the in-phase counter and the phase, whatever HALT and the levels
are; no host operation and no IR tick affects any of the three. -/
def Obligations.TickAdvancesCounters : Prop :=
  (∀ (i : Instr) (s t : State), i ≠ .pwmtick → i ≠ .reset → exec i s = .next t →
    t.pwm.ticks = s.pwm.ticks ∧ t.pwm.cnt = s.pwm.cnt ∧ t.pwm.phase = s.pwm.phase) ∧
  ∀ s : State, ∃ t, exec .pwmtick s = .next t ∧ OnlyPwm s t ∧
    t.pwm.ticks = (s.pwm.ticks + 1) % 2 ^ s.cfg.tkw ∧
    (atFlip s → t.pwm.cnt = 0 ∧ t.pwm.phase = s.pwm.phase.other) ∧
    (¬atFlip s → t.pwm.phase = s.pwm.phase ∧ (MachineInv s → t.pwm.cnt = s.pwm.cnt + 1)) ∧
    t.pwm.halt = s.pwm.halt ∧ t.pwm.level = s.pwm.level

/-- `41_phase_pwm.md` R80, with the flip and halt: every pin after a PWM tick. Under halt none is asserted; at a flip those
of the phase entered are, at any other tick those that were, in both cases less the pins of the active phase whose level
the new count has reached. The scale holds the whole half-phase (`LEVEL_MAX` is at least `PHASE_TICKS`), as here;
`PinsAfterTickAtAnyScale` does without. -/
def Obligations.PinsAfterTick : Prop :=
  ∀ s : State, MachineInv s → s.cfg.phaseTicks ≤ s.cfg.levelMax →
    ∃ t, exec .pwmtick s = .next t ∧ t.pwm.pin.length = s.cfg.nPin ∧ ∀ j < s.cfg.nPin,
      (s.pwm.halt = true → Pins.get t.pwm.pin j = false) ∧
      (s.pwm.halt = false → atFlip s →
        (Pins.get t.pwm.pin j = true ↔ s.cfg.pinPh j = s.pwm.phase.other ∧ ¬pinLevel s j ≤ t.pwm.cnt)) ∧
      (s.pwm.halt = false → ¬atFlip s →
        (Pins.get t.pwm.pin j = true ↔
          Pins.get s.pwm.pin j = true ∧ ¬(s.cfg.pinPh j = s.pwm.phase ∧ pinLevel s j ≤ t.pwm.cnt)))

/-- `41_phase_pwm.md` section 2: at a flip `ch_pin` shows a vector with every pin de-asserted before the one with the pins
of the entered phase; no other tick shows an intermediate vector. -/
def Obligations.FlipBreaksBeforeMake : Prop :=
  ∀ s : State, MachineInv s → ∃ t, exec .pwmtick s = .next t ∧
    (atFlip s → ∃ v, t.out.chPin = [v, t.pwm.pin] ∧ v.length = s.cfg.nPin ∧ allLow v) ∧
    (¬atFlip s → t.out.chPin = [t.pwm.pin])

/-- `41_phase_pwm.md` R81: under halt the counters and the phase advance as always and a tick shows no asserted pin at any
point; after HALT is cleared the pins stay de-asserted until a flip, however many ticks there are before it. -/
def Obligations.HaltKeepsPinsLow : Prop :=
  (∀ s : State, MachineInv s → s.pwm.halt = true → ∃ t, exec .pwmtick s = .next t ∧ (∀ v ∈ t.out.chPin, allLow v) ∧
    allLow t.pwm.pin ∧ t.pwm.ticks = (s.pwm.ticks + 1) % 2 ^ s.cfg.tkw ∧
    t.pwm.cnt = (if atFlip s then 0 else s.pwm.cnt + 1) ∧
    t.pwm.phase = if atFlip s then s.pwm.phase.other else s.pwm.phase) ∧
  ∀ (s : State) (n : Nat), MachineInv s → s.pwm.halt = true → s.pwm.cnt + n < s.cfg.phaseTicks →
    ∃ t, runOps (.wrPwmCtrl 0 :: List.replicate n .pwmtick) s = .next t ∧ t.pwm.halt = false ∧ allLow t.pwm.pin

/-- `41_phase_pwm.md` R82: with a constant level and HALT clear, pin j is asserted in interval k of its own half-phase
exactly when k < min(L, `LEVEL_MAX`); it is asserted in none of the other half-phase, and never visible as asserted in an
interval in which it is not (so level 0 gives no pulse). The scale holds the whole half-phase (`LEVEL_MAX` is at least
`PHASE_TICKS`), as here; `DutyAtAnyScale` does without. -/
def Obligations.DutyIsExact : Prop :=
  ∀ (s : State) (j k : Nat), MachineInv s → s.cfg.phaseTicks ≤ s.cfg.levelMax → j < s.cfg.nPin →
    s.pwm.halt = false → atFlip s → k < s.cfg.phaseTicks →
    ∃ t, runOps (List.replicate (k + 1) .pwmtick) s = .next t ∧
      t.pwm.cnt = k ∧ t.pwm.phase = s.pwm.phase.other ∧
      (Pins.get t.pwm.pin j = true ↔
        s.cfg.pinPh j = s.pwm.phase.other ∧ k < min (pinLevel s j) s.cfg.levelMax) ∧
      ∀ v ∈ t.out.chPin, Pins.get v j = true → Pins.get t.pwm.pin j = true

/-- `41_phase_pwm.md` section 3 (a level written in mid half-phase): an asserted pin of the active phase stays asserted
until the count reaches the level just written, at the earliest at the next tick; a pin already cleared is not set again
in this half-phase, whatever is written. A level of `LEVEL_MAX` and above is never reached, which where `LEVEL_MAX` is less
than `PHASE_TICKS` is the model's reading (log entry 15). -/
def Obligations.LevelChangeInMidPhase : Prop :=
  ∀ (s : State) (i : Fin 4) (j m : Nat) (d : Data), MachineInv s → j < s.cfg.nPin → s.pwm.halt = false →
    s.cfg.pinPh j = s.pwm.phase → s.cfg.pinCh j = i.val → s.pwm.cnt + m < s.cfg.phaseTicks →
    ∃ t, runOps (.wrPwmLevel i d :: List.replicate m .pwmtick) s = .next t ∧
      (Pins.get s.pwm.pin j = true →
        (Pins.get t.pwm.pin j = true ↔
          m = 0 ∨ s.pwm.cnt + m < d.toNat % 2 ^ s.cfg.levelW ∨ s.cfg.levelMax ≤ d.toNat % 2 ^ s.cfg.levelW)) ∧
      (Pins.get s.pwm.pin j = false → Pins.get t.pwm.pin j = false)

/-- `10_state.md` section 3 (`PWM_PIN`): a pin is set only at a flip into its own phase, with HALT clear. -/
def Obligations.PinsRiseOnlyAtFlip : Prop :=
  ∀ (i : Instr) (s t : State) (j : Nat), exec i s = .next t →
    Pins.get s.pwm.pin j = false → Pins.get t.pwm.pin j = true →
    i = .pwmtick ∧ atFlip s ∧ s.pwm.halt = false ∧ s.cfg.pinPh j = s.pwm.phase.other ∧ j < s.cfg.nPin

/-- `41_phase_pwm.md` R84: at the end of every operation and at the `then-visible` point, the asserted pins lie within one
phase. -/
def Obligations.NeverBothPhases : Prop :=
  ∀ (i : Instr) (s : State), MachineInv s → ∃ t, exec i s = .next t ∧
    t.out.chPin.getLast? = some t.pwm.pin ∧ ∀ v ∈ t.out.chPin, neverBoth s.cfg v

/-- `10_state.md` R32: the count stays below `PHASE_TICKS`, in 0..127 here, and the phase toggles at exactly those PWM
ticks that find it at `PHASE_TICKS` - 1 (`RESET` alone sets it otherwise). -/
def Obligations.PhaseTogglesOnlyAtFlip : Prop :=
  ∀ (i : Instr) (s : State), i ≠ .reset → ∃ t, exec i s = .next t ∧
    (MachineInv s → t.pwm.cnt < s.cfg.phaseTicks) ∧
    (t.pwm.phase = s.pwm.phase.other ↔ i = .pwmtick ∧ atFlip s)

/-- `41_phase_pwm.md` section 2 and `30_encoding.md` section 7 (`PWMTICKS n`): n ticks add n to the tick counter and to
the in-phase counter, and toggle the phase once per `PHASE_TICKS`. -/
def Obligations.ManyTicksAddUp : Prop :=
  ∀ (s : State) (n : Nat), MachineInv s → ∃ t, runOps (expandPseudo (.pwmticks n)) s = .next t ∧ OnlyPwm s t ∧
    t.pwm.ticks = (s.pwm.ticks + n) % 2 ^ s.cfg.tkw ∧
    t.pwm.cnt = (s.pwm.cnt + n) % s.cfg.phaseTicks ∧
    t.pwm.phase = (if ((s.pwm.cnt + n) / s.cfg.phaseTicks) % 2 = 0 then s.pwm.phase else s.pwm.phase.other) ∧
    t.pwm.halt = s.pwm.halt ∧ t.pwm.level = s.pwm.level

/-- `41_phase_pwm.md` section 3 (the first half-phase after `RESET`): from dark pins, no operations of any kind assert a
pin before the tick that flips, which from count 0 is the `PHASE_TICKS`-th, the 128th here. -/
def Obligations.NoPinBeforeFirstFlip : Prop :=
  ∀ (is : List Instr) (s : State), s.cfg.wf → allLow s.pwm.pin → s.pwm.cnt + is.count .pwmtick < s.cfg.phaseTicks →
    ∃ t, runOps is s = .next t ∧ allLow t.pwm.pin

/-- `10_state.md` R35: the counters are in step at reset and every step keeps them so, also over the wrap of the tick
counter, its period being a multiple of a full cycle (2^32 and 256 here). -/
def Obligations.CountersStayInStep : Prop :=
  CountersInStep State.reset.cfg State.reset.pwm ∧ 2 * State.reset.cfg.phaseTicks ∣ 2 ^ State.reset.cfg.tkw ∧
  State.reset.cfg.wf ∧
  ∀ s t : State, s.cfg.wf → 2 * s.cfg.phaseTicks ∣ 2 ^ s.cfg.tkw → CountersInStep s.cfg s.pwm → step s = .next t →
    t.cfg = s.cfg ∧ CountersInStep t.cfg t.pwm

/-! ## The whole machine -/

/-- `10_state.md` R30, R34: every step keeps the invariant. -/
def Obligations.InvariantIsKept : Prop := ∀ s t : State, MachineInv s → step s = .next t → MachineInv t

/-- `10_state.md` section 7: the invariant holds in the reset state. -/
def Obligations.InvariantHoldsAtReset : Prop := MachineInv State.reset

/-- `20_memory.md` section 3: the single-writer table, element by element (`RESET` is the environment's and writes all). -/
def Obligations.SingleWriterOwnership : Prop :=
  ∀ (i : Instr) (s t : State), i ≠ .reset → exec i s = .next t →
    (t.ir.state ≠ s.ir.state ∨ t.ir.rawlen ≠ s.ir.rawlen →
      ((∃ b, i = .irtick b) ∧ s.ir.state ≠ .stop) ∨ ((∃ d, i = .wrIrCtrl d) ∧ s.ir.state = .stop)) ∧
    (t.ir.timer ≠ s.ir.timer → ∃ b, i = .irtick b) ∧
    (t.ir.rawbuf ≠ s.ir.rawbuf → (∃ b, i = .irtick b) ∧ s.ir.state ≠ .stop) ∧
    (t.pwm.phase ≠ s.pwm.phase ∨ t.pwm.cnt ≠ s.pwm.cnt ∨ t.pwm.ticks ≠ s.pwm.ticks → i = .pwmtick) ∧
    (t.pwm.pin ≠ s.pwm.pin → i = .pwmtick ∨ ((∃ d, i = .wrPwmCtrl d) ∧ t.pwm.halt = true ∧ allLow t.pwm.pin)) ∧
    (t.pwm.halt ≠ s.pwm.halt → ∃ d, i = .wrPwmCtrl d) ∧
    (t.pwm.level ≠ s.pwm.level → ∃ c d, i = .wrPwmLevel c d) ∧
    t.cfg = s.cfg ∧ t.ops = s.ops

/-- `20_memory.md` R45: `IRTICK s` and `PWMTICK` commute. -/
def Obligations.TicksCommute : Prop :=
  ∀ (s : State) (b : Bool), ∃ t u,
    runOps [.irtick b, .pwmtick] s = .next t ∧ runOps [.pwmtick, .irtick b] s = .next u ∧ SameBlock t u

/-- `60_exceptions.md` section 2: `tick_evt` accompanies every PWM tick and nothing else (in the operation's own outputs,
log entry 6). -/
def Obligations.TickEventIsThePwmTick : Prop :=
  ∀ (i : Instr) (s : State), ∃ t, exec i s = .next t ∧ (t.out.tickEvt = true ↔ i = .pwmtick)

/-! ## The ports -/

/-- `30_encoding.md` section 1 (one `clk` cycle, log entry 6): a cycle with `rst` is a `RESET` whatever the other inputs are; a cycle
leaves the block as the steps that take its operations one at a time do; and `tick_evt` shows its PWM tick. -/
def Obligations.CyclePerformsItsOperations : Prop :=
  (∀ (p : PortIn) (s : State), p.rst = true →
    ∃ t u, cycle p s = .next t ∧ exec .reset s = .next u ∧ SameBlock u t) ∧
  ∀ (p : PortIn) (s : State), s.ops = [] →
    ∃ t u, cycle p s = .next t ∧
      Host.Core.run Sys2Proof.core (cycleWords p).length (presentCycle p s) = .next u ∧
      SameBlock u t ∧ (t.out.tickEvt = true ↔ p.rst = false ∧ p.pwmTick = true)

/-- `20_memory.md` R46: in one cycle the ticks come first; a read returns the post-tick value, a write acts on the
post-tick state. -/
def Obligations.HostAccessComesAfterTicks : Prop :=
  (∀ (p : PortIn) (s : State), p.rst = false → p.hSel = true → p.hWe = false →
    ∃ t u, cycle { p with hSel := false } s = .next u ∧ cycle p s = .next t ∧
      t.out.hRdata = some (regRead p.hAddr u) ∧ SameBlock u t) ∧
  ∀ (p : PortIn) (s : State), p.rst = false → p.hSel = true → p.hWe = true →
    ∃ t u, cycle { p with hSel := false } s = .next u ∧ cycle p s = .next t ∧
      t.out.hRdata = none ∧ SameBlock (regWrite p.hAddr p.hWdata u) t

/-! ## Other values of the parameters -/

/-- `10_state.md` section 3 (`PWM_LEVEL[i]`, 0 <= i < `N_CH`): an index of no channel reads 0 and ignores writes. That the
index of a level register that the configuration does not have is an unmapped one is the model's choice (log entry 3);
here `N_CH` is 4 and there is no such index. -/
def Obligations.LevelIndexOfNoChannelIsUnmapped : Prop :=
  ∀ (s : State) (i : Fin 4) (d : Data), s.cfg.nCh ≤ i.val →
    Returns (.rdPwmLevel i) s 0 ∧ HasNoEffect (.wrPwmLevel i d) s

/-- `41_phase_pwm.md` section 2 on every scale: every pin after a PWM tick, in every state. The count never reaches a level
of `LEVEL_MAX` and above (`00_scope.md` section 3); that this holds also where `LEVEL_MAX` is less than `PHASE_TICKS` is the
model's choice (log entry 15). -/
def Obligations.PinsAfterTickAtAnyScale : Prop :=
  ∀ s : State, ∃ t, exec .pwmtick s = .next t ∧ t.pwm.pin.length = s.cfg.nPin ∧ ∀ j < s.cfg.nPin,
    (s.pwm.halt = true → Pins.get t.pwm.pin j = false) ∧
    (s.pwm.halt = false → atFlip s →
      (Pins.get t.pwm.pin j = true ↔ s.cfg.pinPh j = s.pwm.phase.other ∧ ¬levelPassed s j t.pwm.cnt)) ∧
    (s.pwm.halt = false → ¬atFlip s →
      (Pins.get t.pwm.pin j = true ↔
        Pins.get s.pwm.pin j = true ∧ ¬(s.cfg.pinPh j = s.pwm.phase ∧ levelPassed s j t.pwm.cnt)))

/-- `41_phase_pwm.md` section 3 on every scale: with a constant level L and HALT clear, pin j is asserted in interval k of
its own half-phase exactly when k < L or L is at least `LEVEL_MAX`. That a level of `LEVEL_MAX` holds the pin for the whole
half-phase also where `LEVEL_MAX` is less than `PHASE_TICKS` is the model's choice (log entry 15). -/
def Obligations.DutyAtAnyScale : Prop :=
  ∀ (s : State) (j k : Nat), MachineInv s → j < s.cfg.nPin → s.pwm.halt = false → atFlip s → k < s.cfg.phaseTicks →
    ∃ t, runOps (List.replicate (k + 1) .pwmtick) s = .next t ∧
      (Pins.get t.pwm.pin j = true ↔
        s.cfg.pinPh j = s.pwm.phase.other ∧ (k < pinLevel s j ∨ s.cfg.levelMax ≤ pinLevel s j))
end

