-- ==== Sys2Proof/Laws/State.lean ====
section
/-! SUPPORT. One lemma for each field of each named update of the state. -/

namespace Sys2Proof.Machine

@[simp] theorem withIr_cfg (s : State) (x : Irrx) : (s.withIr x).cfg = s.cfg := rfl
@[simp] theorem withIr_ir (s : State) (x : Irrx) : (s.withIr x).ir = x := rfl
@[simp] theorem withIr_pwm (s : State) (x : Irrx) : (s.withIr x).pwm = s.pwm := rfl
@[simp] theorem withIr_out (s : State) (x : Irrx) : (s.withIr x).out = quiet s.pwm := rfl
@[simp] theorem withIr_ops (s : State) (x : Irrx) : (s.withIr x).ops = s.ops := rfl
@[simp] theorem withIr_draws (s : State) (x : Irrx) : (s.withIr x).draws = s.draws := rfl

@[simp] theorem withPwm_cfg (s : State) (x : Phpwm) : (s.withPwm x).cfg = s.cfg := rfl
@[simp] theorem withPwm_ir (s : State) (x : Phpwm) : (s.withPwm x).ir = s.ir := rfl
@[simp] theorem withPwm_pwm (s : State) (x : Phpwm) : (s.withPwm x).pwm = x := rfl
@[simp] theorem withPwm_out (s : State) (x : Phpwm) : (s.withPwm x).out = quiet x := rfl
@[simp] theorem withPwm_ops (s : State) (x : Phpwm) : (s.withPwm x).ops = s.ops := rfl
@[simp] theorem withPwm_draws (s : State) (x : Phpwm) : (s.withPwm x).draws = s.draws := rfl

@[simp] theorem withOut_cfg (s : State) (x : PortOut) : (s.withOut x).cfg = s.cfg := rfl
@[simp] theorem withOut_ir (s : State) (x : PortOut) : (s.withOut x).ir = s.ir := rfl
@[simp] theorem withOut_pwm (s : State) (x : PortOut) : (s.withOut x).pwm = s.pwm := rfl
@[simp] theorem withOut_out (s : State) (x : PortOut) : (s.withOut x).out = x := rfl
@[simp] theorem withOut_ops (s : State) (x : PortOut) : (s.withOut x).ops = s.ops := rfl
@[simp] theorem withOut_draws (s : State) (x : PortOut) : (s.withOut x).draws = s.draws := rfl

@[simp] theorem withOps_cfg (s : State) (x : List OpWord) : (s.withOps x).cfg = s.cfg := rfl
@[simp] theorem withOps_ir (s : State) (x : List OpWord) : (s.withOps x).ir = s.ir := rfl
@[simp] theorem withOps_pwm (s : State) (x : List OpWord) : (s.withOps x).pwm = s.pwm := rfl
@[simp] theorem withOps_out (s : State) (x : List OpWord) : (s.withOps x).out = s.out := rfl
@[simp] theorem withOps_ops (s : State) (x : List OpWord) : (s.withOps x).ops = x := rfl
@[simp] theorem withOps_draws (s : State) (x : List OpWord) : (s.withOps x).draws = s.draws := rfl

@[simp] theorem resetBlock_cfg (s : State) : (resetBlock s).cfg = s.cfg := rfl
@[simp] theorem resetBlock_ir (s : State) : (resetBlock s).ir = Irrx.afterReset s.cfg s.draws := rfl
@[simp] theorem resetBlock_pwm (s : State) : (resetBlock s).pwm = Phpwm.afterReset s.cfg := rfl
@[simp] theorem resetBlock_out (s : State) : (resetBlock s).out = quiet (Phpwm.afterReset s.cfg) := rfl
@[simp] theorem resetBlock_ops (s : State) : (resetBlock s).ops = s.ops := rfl
@[simp] theorem resetBlock_draws (s : State) : (resetBlock s).draws = s.draws + 1 := rfl

@[simp] theorem irAfterReset_state (c : Config) (n : Nat) : (Irrx.afterReset c n).state = .idle := rfl
@[simp] theorem irAfterReset_timer (c : Config) (n : Nat) : (Irrx.afterReset c n).timer = 0 := rfl
@[simp] theorem irAfterReset_rawlen (c : Config) (n : Nat) : (Irrx.afterReset c n).rawlen = 0 := rfl
@[simp] theorem irAfterReset_rawbuf (c : Config) (n : Nat) : (Irrx.afterReset c n).rawbuf = freshRawbuf c n := rfl

@[simp] theorem pwmAfterReset_phase (c : Config) : (Phpwm.afterReset c).phase = .A := rfl
@[simp] theorem pwmAfterReset_cnt (c : Config) : (Phpwm.afterReset c).cnt = 0 := rfl
@[simp] theorem pwmAfterReset_ticks (c : Config) : (Phpwm.afterReset c).ticks = 0 := rfl
@[simp] theorem pwmAfterReset_halt (c : Config) : (Phpwm.afterReset c).halt = false := rfl
@[simp] theorem pwmAfterReset_level (c : Config) : (Phpwm.afterReset c).level = List.replicate c.nCh 0 := rfl
@[simp] theorem pwmAfterReset_pin (c : Config) : (Phpwm.afterReset c).pin = Pins.allLow c := rfl

@[simp] theorem quiet_hRdata (p : Phpwm) : (quiet p).hRdata = none := rfl
@[simp] theorem quiet_tickEvt (p : Phpwm) : (quiet p).tickEvt = false := rfl
@[simp] theorem quiet_chPin (p : Phpwm) : (quiet p).chPin = [p.pin] := rfl

@[simp] theorem writeHalt_halt (c : Config) (h : Bool) (p : Phpwm) : (writeHalt c h p).halt = h := rfl
@[simp] theorem writeHalt_phase (c : Config) (h : Bool) (p : Phpwm) : (writeHalt c h p).phase = p.phase := rfl
@[simp] theorem writeHalt_cnt (c : Config) (h : Bool) (p : Phpwm) : (writeHalt c h p).cnt = p.cnt := rfl
@[simp] theorem writeHalt_ticks (c : Config) (h : Bool) (p : Phpwm) : (writeHalt c h p).ticks = p.ticks := rfl
@[simp] theorem writeHalt_level (c : Config) (h : Bool) (p : Phpwm) : (writeHalt c h p).level = p.level := rfl
@[simp] theorem writeHalt_pin (c : Config) (h : Bool) (p : Phpwm) : (writeHalt c h p).pin = if h then Pins.allLow c else p.pin := rfl

@[simp] theorem writeLevel_halt (c : Config) (i : Fin 4) (v : Nat) (p : Phpwm) : (writeLevel c i v p).halt = p.halt := rfl
@[simp] theorem writeLevel_phase (c : Config) (i : Fin 4) (v : Nat) (p : Phpwm) : (writeLevel c i v p).phase = p.phase := rfl
@[simp] theorem writeLevel_cnt (c : Config) (i : Fin 4) (v : Nat) (p : Phpwm) : (writeLevel c i v p).cnt = p.cnt := rfl
@[simp] theorem writeLevel_ticks (c : Config) (i : Fin 4) (v : Nat) (p : Phpwm) : (writeLevel c i v p).ticks = p.ticks := rfl
@[simp] theorem writeLevel_level (c : Config) (i : Fin 4) (v : Nat) (p : Phpwm) : (writeLevel c i v p).level =
    if i.val < c.nCh then p.level.set i.val v else p.level := rfl
@[simp] theorem writeLevel_pin (c : Config) (i : Fin 4) (v : Nat) (p : Phpwm) : (writeLevel c i v p).pin = p.pin := rfl

@[simp] theorem record_state (c : Config) (d : Nat) (x : IrState) (ir : Irrx) :
    (record c d x ir).state = if ir.rawlen.toNat + 1 = c.cap then .stop else x := rfl
@[simp] theorem record_timer (c : Config) (d : Nat) (x : IrState) (ir : Irrx) :
    (record c d x ir).timer = 0 := rfl
@[simp] theorem record_rawlen (c : Config) (d : Nat) (x : IrState) (ir : Irrx) :
    (record c d x ir).rawlen = ir.rawlen + 1 := rfl
@[simp] theorem record_rawbuf (c : Config) (d : Nat) (x : IrState) (ir : Irrx) :
    (record c d x ir).rawbuf = ir.rawbuf.set ir.rawlen.toNat d := rfl

@[simp] theorem freshRawbuf_length (c : Config) (n : Nat) : (freshRawbuf c n).length = c.cap := by simp [freshRawbuf]

@[simp] theorem allLow_length (c : Config) : (Pins.allLow c).length = c.nPin := by simp [Pins.allLow]

end Sys2Proof.Machine
end

