-- ==== Sys2Proof/Laws/Ops.lean ====
section
/-! SUPPORT. For each shared operation, what it does, said once. -/

namespace Sys2Proof.Machine

/-! ### How an operation ends -/

theorem respond_next {s t : State} {v : Data} (h : respond s v = .next t) :
    t = s.withOut { quiet s.pwm with hRdata := some v } := by
  simpa [respond] using h.symm

theorem ignore_next {s t : State} (h : ignore s = .next t) : t = s.withOut (quiet s.pwm) := by
  simpa [ignore] using h.symm

/-! ### IRRX -/

/-- `sat_inc` as a minimum. -/
theorem satInc_eq (c : Config) (t : Nat) : satInc c t = min (t + 1) c.tmax := by
  unfold satInc
  split <;> omega

@[simp] theorem isMark_eq_true {s : Bool} : isMark s = true ↔ s = false := by cases s <;> simp [isMark]

theorem irEntry_set (l : List Nat) (n k : Nat) (d : Nat) (ir : Irrx) (h : ir.rawbuf = l.set n d) :
    irEntry ir k = if k = n ∧ n < l.length then d else l.getD k 0 := by
  unfold irEntry
  rw [h]
  simp only [List.getD_eq_getElem?_getD, List.getElem?_set]
  by_cases hk : n = k
  · subst hk
    by_cases hl : n < l.length <;> simp [hl]
  · simp [hk, Ne.symm hk]

/-- A record writes entry `IR_RAWLEN` and no other. -/
theorem irEntry_record (c : Config) (d : Nat) (x : IrState) (ir : Irrx) (k : Nat) :
    irEntry (record c d x ir) k =
      if k = ir.rawlen.toNat ∧ ir.rawlen.toNat < ir.rawbuf.length then d else irEntry ir k :=
  irEntry_set ir.rawbuf ir.rawlen.toNat k d (record c d x ir) rfl

/-- A record keeps the buffer's size. -/
@[simp] theorem record_rawbuf_length (c : Config) (d : Nat) (x : IrState) (ir : Irrx) :
    (record c d x ir).rawbuf.length = ir.rawbuf.length := by simp

/-- A record counts the entry it wrote. -/
theorem record_rawlen_toNat (c : Config) (d : Nat) (x : IrState) (ir : Irrx) (h : ir.rawlen.toNat < 255) :
    (record c d x ir).rawlen.toNat = ir.rawlen.toNat + 1 := by
  simp [BitVec.toNat_add]
  omega

theorem resume_of_stop {ir : Irrx} (h : ir.state = .stop) : resume ir = { ir with state := .idle, rawlen := 0 } := by
  simp [resume, h]

theorem resume_of_not_stop {ir : Irrx} (h : ir.state ≠ .stop) : resume ir = ir := by simp [resume, h]

@[simp] theorem resume_timer (ir : Irrx) : (resume ir).timer = ir.timer := by unfold resume; split <;> rfl

@[simp] theorem resume_rawbuf (ir : Irrx) : (resume ir).rawbuf = ir.rawbuf := by unfold resume; split <;> rfl

/-! ### Pins -/

@[simp] theorem tabulate_length (c : Config) (f : Nat → Bool) : (Pins.tabulate c f).length = c.nPin := by
  simp [Pins.tabulate]

/-- Pin j of a tabulated vector. -/
@[simp] theorem get_tabulate (c : Config) (f : Nat → Bool) (j : Nat) :
    Pins.get (Pins.tabulate c f) j = (decide (j < c.nPin) && f j) := by
  unfold Pins.get Pins.tabulate
  by_cases h : j < c.nPin <;> simp [h, List.getD_eq_getElem?_getD]

@[simp] theorem get_allLow (c : Config) (j : Nat) : Pins.get (Pins.allLow c) j = false := by
  simp [Pins.get, Pins.allLow, List.getD_eq_getElem?_getD, List.getElem?_replicate]
  split <;> rfl

/-- A pin that does not exist is de-asserted. -/
theorem get_of_length_le {v : Pins} {j : Nat} (h : v.length ≤ j) : Pins.get v j = false := by
  simp [Pins.get, List.getD_eq_getElem?_getD, List.getElem?_eq_none h]

theorem get_leave (c : Config) (p : Phase) (v : Pins) (j : Nat) :
    Pins.get (Pins.leave c p v) j = true ↔ j < c.nPin ∧ c.pinPh j = p ∧ Pins.get v j = true := by
  simp [Pins.leave]

theorem get_enter (c : Config) (p : Phase) (v : Pins) (j : Nat) :
    Pins.get (Pins.enter c p v) j = true ↔ j < c.nPin ∧ (c.pinPh j = p ∨ Pins.get v j = true) := by
  simp only [Pins.enter, get_tabulate, Bool.and_eq_true, decide_eq_true_eq]
  split <;> simp_all

/-- Where `LEVEL_MAX` is at least `PHASE_TICKS`, the comparison is that of the count with the level alone (R80). -/
theorem dutyReached_of_count {c : Config} {cnt : Nat} (h : cnt < c.phaseTicks) (hm : c.phaseTicks ≤ c.levelMax)
    (level : Nat) : dutyReached c level cnt = true ↔ level ≤ cnt := by
  rw [dutyReached, decide_eq_true_eq]
  omega

theorem get_compare (c : Config) (p : Phase) (level : Nat → Nat) (cnt : Nat) (v : Pins) (j : Nat) :
    Pins.get (Pins.compare c p level cnt v) j = true ↔
      j < c.nPin ∧ Pins.get v j = true ∧
        ¬(c.pinPh j = p ∧ level (c.pinCh j) ≤ cnt ∧ level (c.pinCh j) < c.levelMax) := by
  simp only [Pins.compare, dutyReached, get_tabulate, Bool.and_eq_true, decide_eq_true_eq]
  split <;> simp_all

@[simp] theorem leave_length (c : Config) (p : Phase) (v : Pins) : (Pins.leave c p v).length = c.nPin := by
  simp [Pins.leave]

@[simp] theorem enter_length (c : Config) (p : Phase) (v : Pins) : (Pins.enter c p v).length = c.nPin := by
  simp [Pins.enter]

@[simp] theorem compare_length (c : Config) (p : Phase) (level : Nat → Nat) (cnt : Nat) (v : Pins) :
    (Pins.compare c p level cnt v).length = c.nPin := by simp [Pins.compare]

@[simp] theorem other_other (p : Phase) : p.other.other = p := by cases p <;> rfl

theorem other_ne (p : Phase) : p.other ≠ p := by cases p <;> decide

/-- A written level reads back; the others are as before. -/
theorem levelAt_writeLevel (c : Config) (i : Fin 4) (j v : Nat) (p : Phpwm) (h : p.level.length = c.nCh) :
    levelAt (writeLevel c i v p) j = if j = i.val ∧ i.val < c.nCh then v else levelAt p j := by
  unfold levelAt
  rw [writeLevel_level]
  by_cases hi : i.val < c.nCh
  · rw [if_pos hi, List.getD_eq_getElem?_getD, List.getD_eq_getElem?_getD, List.getElem?_set]
    by_cases hj : i.val = j
    · subst hj; simp [hi, h]
    · simp [hj, Ne.symm hj]
  · simp [hi]

/-- A level write keeps the number of levels. -/
theorem writeLevel_length (c : Config) (i : Fin 4) (v : Nat) (p : Phpwm) :
    (writeLevel c i v p).level.length = p.level.length := by
  rw [writeLevel_level]
  split <;> simp

/-- Every level fits its width after a write of a value that does. -/
theorem writeLevel_fits {c : Config} {i : Fin 4} {v n : Nat} {p : Phpwm} (hv : v < n) (h : ∀ l ∈ p.level, l < n) :
    ∀ l ∈ (writeLevel c i v p).level, l < n := by
  intro l hl
  rw [writeLevel_level] at hl
  split at hl
  · rcases List.mem_or_eq_of_mem_set hl with hl | rfl
    · exact h l hl
    · exact hv
  · exact h l hl

theorem trunc_lt (n v : Nat) : trunc n v < 2 ^ n := Nat.mod_lt _ (Nat.two_pow_pos n)

theorem trunc_of_lt {n v : Nat} (h : v < 2 ^ n) : trunc n v = v := Nat.mod_eq_of_lt h

end Sys2Proof.Machine
end

