-- ==== Sys2Proof/Laws/IrCapture.lean ====
section
/-! SUPPORT. What one IR tick does to IRRX, one lemma for each state and sample (`40_ir_capture.md` R68 to R71). -/

namespace Sys2Proof.Machine

variable {c : Config} {ir : Irrx}

theorem irTick_idle_space (h : ir.state = .idle) : irTick c true ir = { ir with timer := satInc c ir.timer } := by
  simp [irTick, irIdle, isMark, h]

theorem irTick_idle_noise (h : ir.state = .idle) (hg : satInc c ir.timer < c.gapTicks) :
    irTick c false ir = { ir with timer := 0 } := by
  have hm : isMark false = true := rfl
  simp only [irTick, irIdle, h]
  rw [if_pos hm, if_pos hg]

theorem irTick_idle_start (h : ir.state = .idle) (hg : c.gapTicks ≤ satInc c ir.timer) :
    irTick c false ir = record c (satInc c ir.timer) .mark { ir with rawlen := 0 } := by
  have hm : isMark false = true := rfl
  simp only [irTick, irIdle, h]
  rw [if_pos hm, if_neg (by omega)]

theorem irTick_mark_mark (h : ir.state = .mark) : irTick c false ir = { ir with timer := satInc c ir.timer } := by
  simp [irTick, irMark, isMark, h]

theorem irTick_mark_space (h : ir.state = .mark) : irTick c true ir = record c (satInc c ir.timer) .space ir := by
  simp [irTick, irMark, isMark, h]

theorem irTick_space_mark (h : ir.state = .space) : irTick c false ir = record c (satInc c ir.timer) .mark ir := by
  simp [irTick, irSpace, isMark, h]

theorem irTick_space_space (h : ir.state = .space) (hg : satInc c ir.timer ≤ c.gapTicks) :
    irTick c true ir = { ir with timer := satInc c ir.timer } := by
  have hm : ¬ isMark true = true := by decide
  simp only [irTick, irSpace, h]
  rw [if_neg hm, if_neg (by omega)]

theorem irTick_space_gap (h : ir.state = .space) (hg : c.gapTicks < satInc c ir.timer) :
    irTick c true ir = { ir with timer := satInc c ir.timer, state := .stop } := by
  have hm : ¬ isMark true = true := by decide
  simp only [irTick, irSpace, h]
  rw [if_neg hm, if_pos hg]

theorem irTick_stop_mark (h : ir.state = .stop) : irTick c false ir = { ir with timer := 0 } := by
  simp [irTick, irStop, isMark, h]

theorem irTick_stop_space (h : ir.state = .stop) : irTick c true ir = { ir with timer := satInc c ir.timer } := by
  simp [irTick, irStop, isMark, h]

/-- An IR tick keeps the buffer's size. -/
@[simp] theorem irTick_rawbuf_length (c : Config) (b : Bool) (ir : Irrx) :
    (irTick c b ir).rawbuf.length = ir.rawbuf.length := by
  unfold irTick irIdle irMark irSpace irStop
  dsimp only
  split <;> split <;> (try split) <;> simp

end Sys2Proof.Machine
end

