-- ==== Sys2Proof/Laws/Operands.lean ====
section
/-! SUPPORT. What the operands and the read values of the host port are (`30_encoding.md` R57, `42_host_access.md`). -/

namespace Sys2Proof.Machine

/-- The level a write leaves is below 2^`LEVEL_W`. -/
theorem levelOf_lt (c : Config) (d : Data) : levelOf c d < 2 ^ c.levelW := trunc_lt _ _

/-- Only the low `LEVEL_W` bits of the written data count. -/
theorem levelOf_congr {c : Config} {d e : Data} (h : ∀ n < c.levelW, d.getLsbD n = e.getLsbD n) :
    levelOf c d = levelOf c e := by
  refine Nat.eq_of_testBit_eq fun n => ?_
  rw [levelOf, levelOf, trunc, trunc, Nat.testBit_mod_two_pow, Nat.testBit_mod_two_pow]
  by_cases hn : n < c.levelW
  · exact congrArg _ (h n hn)
  · simp [hn]

/-- A value of w bits reads 0 above them. -/
theorem getLsbD_zext32 {v w n : Nat} (h : v < 2 ^ w) (hn : w ≤ n) : (zext32 v).getLsbD n = false := by
  rw [zext32, BitVec.getLsbD_ofNat, Nat.testBit_lt_two_pow (h.trans_le (Nat.pow_le_pow_right (by omega) hn)),
    Bool.and_false]

theorem readLevel_of_lt {c : Config} {i : Fin 4} (h : i.val < c.nCh) (p : Phpwm) :
    readLevel c i p = BitVec.ofNat 32 (levelAt p i.val) := if_pos h

theorem readLevel_of_ge {c : Config} {i : Fin 4} (h : c.nCh ≤ i.val) (p : Phpwm) : readLevel c i p = 0 :=
  if_neg (Nat.not_lt.mpr h)

theorem readRawbuf_of_lt {c : Config} {k : Fin 128} (h : k.val < c.cap) (ir : Irrx) :
    readRawbuf c k ir = BitVec.ofNat 32 (irEntry ir k.val) := if_pos h

theorem readRawbuf_of_ge {c : Config} {k : Fin 128} (h : c.cap ≤ k.val) (ir : Irrx) : readRawbuf c k ir = 0 :=
  if_neg (Nat.not_lt.mpr h)

end Sys2Proof.Machine
end

