-- ==== Sys2Proof/Laws/Words.lean ====
section
/-! SUPPORT. The fields of an operation word, and facts about all 256 register indices. -/

namespace Sys2Proof

/-- Every bit of a word made of three fields. -/
theorem getLsbD_mkWord (k : BitVec 2) (a : Index) (d : Data) (i : Nat) :
    (mkWord k a d).getLsbD i =
      if i < 32 then d.getLsbD i else if i - 32 < 8 then a.getLsbD (i - 32) else k.getLsbD (i - 32 - 8) := by
  change ((k ++ a ++ d : BitVec (2 + 8 + 32))).getLsbD i = _
  rw [BitVec.getLsbD_append, BitVec.getLsbD_append]

@[simp] theorem kind_mkWord (k : BitVec 2) (a : Index) (d : Data) : OpWord.kind (mkWord k a d) = k := by
  apply BitVec.eq_of_getLsbD_eq
  intro i hi
  simp only [OpWord.kind, BitVec.getLsbD_extractLsb', getLsbD_mkWord, hi, decide_true, Bool.true_and]
  rw [if_neg (by omega), if_neg (by omega), show 40 + i - 32 - 8 = i by omega]

@[simp] theorem index_mkWord (k : BitVec 2) (a : Index) (d : Data) : OpWord.index (mkWord k a d) = a := by
  apply BitVec.eq_of_getLsbD_eq
  intro i hi
  simp only [OpWord.index, BitVec.getLsbD_extractLsb', getLsbD_mkWord, hi, decide_true, Bool.true_and]
  rw [if_neg (by omega), if_pos (by omega), show 32 + i - 32 = i by omega]

@[simp] theorem data_mkWord (k : BitVec 2) (a : Index) (d : Data) : OpWord.data (mkWord k a d) = d := by
  apply BitVec.eq_of_getLsbD_eq
  intro i hi
  simp only [OpWord.data, BitVec.getLsbD_extractLsb', getLsbD_mkWord, hi, decide_true, Bool.true_and]
  rw [if_pos (by omega), show 0 + i = i by omega]

/-- A word is its three fields. -/
theorem mkWord_fields (w : OpWord) : mkWord w.kind w.index w.data = w := by
  apply BitVec.eq_of_getLsbD_eq
  intro i hi
  rw [getLsbD_mkWord]
  simp only [OpWord.kind, OpWord.index, OpWord.data, BitVec.getLsbD_extractLsb']
  split
  · simp [*]
  · split
    · simp [*, show 32 + (i - 32) = i by omega]
    · simp [show 40 + (i - 32 - 8) = i by omega, show i - 32 - 8 < 2 by omega]

/-- Two words are equal when their fields are. -/
theorem word_ext {v w : OpWord} (hk : v.kind = w.kind) (ha : v.index = w.index) (hd : v.data = w.data) : v = w := by
  rw [← mkWord_fields v, ← mkWord_fields w, hk, ha, hd]

@[simp] theorem kind_and (v w : OpWord) : OpWord.kind (v &&& w) = v.kind &&& w.kind := by
  ext i hi
  simp [OpWord.kind]

@[simp] theorem index_and (v w : OpWord) : OpWord.index (v &&& w) = v.index &&& w.index := by
  ext i hi
  simp [OpWord.index]

@[simp] theorem data_and (v w : OpWord) : OpWord.data (v &&& w) = v.data &&& w.data := by
  ext i hi
  simp [OpWord.data]

/-- A word fits a row when each of its fields fits that field of the row. -/
theorem fits_iff (w mask pattern : OpWord) :
    w &&& mask = pattern ↔
      w.kind &&& mask.kind = pattern.kind ∧ w.index &&& mask.index = pattern.index ∧
        w.data &&& mask.data = pattern.data := by
  constructor
  · rintro rfl
    simp
  · rintro ⟨hk, ha, hd⟩
    exact word_ext (by simpa using hk) (by simpa using ha) (by simpa using hd)

/-- What a computation finds true of the 256 register indices is true of every index. -/
theorem forall_index {P : Index → Bool} (h : (List.range 256).all (fun n => P (BitVec.ofNat 8 n)) = true)
    (a : Index) : P a = true := by
  have := List.all_eq_true.mp h a.toNat (List.mem_range.mpr a.isLt)
  simpa using this

end Sys2Proof
end

