-- ==== Sys2Proof/Laws/PerInstr.lean ====
section
/-! SUPPORT. Families of statements about every operation as syntax, one lemma for each constructor of `Instr`. -/

namespace Sys2Proof.Laws.EncodeFitsRow

/-- The word the encoder writes for a well-formed operation fits the operation's row of spec/opcode_table.json
(`30_encoding.md` R58). -/
def Statement (i : Instr) : Prop := i.wellFormed = true → encode i &&& (opRow i).mask = (opRow i).pattern

/-- A `RD` word fits a row when its index does. -/
theorem rd_fits {a : Index} {mask pattern : OpWord} (hk : 0 &&& mask.kind = pattern.kind)
    (hd : 0 &&& mask.data = pattern.data) (ha : a &&& mask.index = pattern.index) :
    rdWord a &&& mask = pattern := by
  rw [fits_iff, rdWord, kind_mkWord, index_mkWord, data_mkWord]
  exact ⟨hk, ha, hd⟩

/-- A `WR` word fits a row that leaves `D` free when its index does. -/
theorem wr_fits {a : Index} {d : Data} {mask pattern : OpWord} (hk : 1 &&& mask.kind = pattern.kind)
    (hm : mask.data = 0) (hp : pattern.data = 0) (ha : a &&& mask.index = pattern.index) :
    wrWord a d &&& mask = pattern := by
  rw [fits_iff, wrWord, kind_mkWord, index_mkWord, data_mkWord]
  exact ⟨hk, ha, by simp [hm, hp]⟩

/-- The indices of a range of unmapped indices are those that fit its row's bits. -/
theorem range_fits (lo hi : Nat) (m p : Index)
    (h : (List.range 256).all (fun n => !inRange lo hi (BitVec.ofNat 8 n) || decide (BitVec.ofNat 8 n &&& m = p)) = true)
    {a : Index} (ha : inRange lo hi a = true) : a &&& m = p := by
  have := forall_index (P := fun a => !inRange lo hi a || decide (a &&& m = p)) h a
  simpa [ha] using this

/-- The indices of the level registers are those whose upper six bits are `000010`. -/
theorem levelIndex_fits : ∀ i : Fin 4, levelIndex i &&& 0xFC = 0x08 := by decide

/-- The indices of the buffer window are those whose top bit is set. -/
theorem rawbufIndex_fits : ∀ k : Fin 128, rawbufIndex k &&& 0x80 = 0x80 := by decide +kernel

theorem pwmtick : Statement .pwmtick :=
  fun _ => by decide

theorem irtick (s : Bool) : Statement (.irtick s) :=
  fun _ => by cases s <;> decide

theorem reset : Statement .reset :=
  fun _ => by decide

theorem rdPwmCtrl : Statement .rdPwmCtrl :=
  fun _ => rd_fits (mask := 0x3FFFFFFFFFF) (pattern := 0x00000000000)
    (by decide) (by decide) (by decide)

theorem wrPwmCtrl (d : Data) : Statement (.wrPwmCtrl d) :=
  fun _ => wr_fits (mask := 0x3FF00000000) (pattern := 0x10000000000)
    (by decide) (by decide) (by decide) (by decide)

theorem rdPwmPhase : Statement .rdPwmPhase :=
  fun _ => rd_fits (mask := 0x3FFFFFFFFFF) (pattern := 0x00100000000)
    (by decide) (by decide) (by decide)

theorem rdPwmCnt : Statement .rdPwmCnt :=
  fun _ => rd_fits (mask := 0x3FFFFFFFFFF) (pattern := 0x00200000000)
    (by decide) (by decide) (by decide)

theorem rdPwmTicks : Statement .rdPwmTicks :=
  fun _ => rd_fits (mask := 0x3FFFFFFFFFF) (pattern := 0x00300000000)
    (by decide) (by decide) (by decide)

theorem rdPwmPins : Statement .rdPwmPins :=
  fun _ => rd_fits (mask := 0x3FFFFFFFFFF) (pattern := 0x00400000000)
    (by decide) (by decide) (by decide)

theorem rdPwmLevel (i : Fin 4) : Statement (.rdPwmLevel i) :=
  fun _ => rd_fits (mask := 0x3FCFFFFFFFF) (pattern := 0x00800000000)
    (by decide) (by decide) (levelIndex_fits i)

theorem wrPwmLevel (i : Fin 4) (d : Data) : Statement (.wrPwmLevel i d) :=
  fun _ => wr_fits (mask := 0x3FC00000000) (pattern := 0x10800000000)
    (by decide) (by decide) (by decide) (levelIndex_fits i)

theorem rdIrState : Statement .rdIrState :=
  fun _ => rd_fits (mask := 0x3FFFFFFFFFF) (pattern := 0x01000000000)
    (by decide) (by decide) (by decide)

theorem rdIrCtrl : Statement .rdIrCtrl :=
  fun _ => rd_fits (mask := 0x3FFFFFFFFFF) (pattern := 0x01100000000)
    (by decide) (by decide) (by decide)

theorem wrIrCtrl (d : Data) : Statement (.wrIrCtrl d) :=
  fun _ => wr_fits (mask := 0x3FF00000000) (pattern := 0x11100000000)
    (by decide) (by decide) (by decide) (by decide)

theorem rdIrTimer : Statement .rdIrTimer :=
  fun _ => rd_fits (mask := 0x3FFFFFFFFFF) (pattern := 0x01200000000)
    (by decide) (by decide) (by decide)

theorem rdIrRawlen : Statement .rdIrRawlen :=
  fun _ => rd_fits (mask := 0x3FFFFFFFFFF) (pattern := 0x01300000000)
    (by decide) (by decide) (by decide)

theorem rdIrRawbuf (k : Fin 128) : Statement (.rdIrRawbuf k) :=
  fun _ => rd_fits (mask := 0x380FFFFFFFF) (pattern := 0x08000000000)
    (by decide) (by decide) (rawbufIndex_fits k)

theorem wrPwmPhase (d : Data) : Statement (.wrPwmPhase d) :=
  fun _ => wr_fits (mask := 0x3FF00000000) (pattern := 0x10100000000)
    (by decide) (by decide) (by decide) (by decide)

theorem wrPwmCnt (d : Data) : Statement (.wrPwmCnt d) :=
  fun _ => wr_fits (mask := 0x3FF00000000) (pattern := 0x10200000000)
    (by decide) (by decide) (by decide) (by decide)

theorem wrPwmTicks (d : Data) : Statement (.wrPwmTicks d) :=
  fun _ => wr_fits (mask := 0x3FF00000000) (pattern := 0x10300000000)
    (by decide) (by decide) (by decide) (by decide)

theorem wrPwmPins (d : Data) : Statement (.wrPwmPins d) :=
  fun _ => wr_fits (mask := 0x3FF00000000) (pattern := 0x10400000000)
    (by decide) (by decide) (by decide) (by decide)

theorem wrIrState (d : Data) : Statement (.wrIrState d) :=
  fun _ => wr_fits (mask := 0x3FF00000000) (pattern := 0x11000000000)
    (by decide) (by decide) (by decide) (by decide)

theorem wrIrTimer (d : Data) : Statement (.wrIrTimer d) :=
  fun _ => wr_fits (mask := 0x3FF00000000) (pattern := 0x11200000000)
    (by decide) (by decide) (by decide) (by decide)

theorem wrIrRawlen (d : Data) : Statement (.wrIrRawlen d) :=
  fun _ => wr_fits (mask := 0x3FF00000000) (pattern := 0x11300000000)
    (by decide) (by decide) (by decide) (by decide)

theorem wrIrRawbuf (k : Fin 128) (d : Data) : Statement (.wrIrRawbuf k d) :=
  fun _ => wr_fits (mask := 0x38000000000) (pattern := 0x18000000000)
    (by decide) (by decide) (by decide) (rawbufIndex_fits k)

theorem rdUnmapped05 (a : Index) : Statement (.rdUnmapped05 a) :=
  fun h => rd_fits (mask := 0x3FFFFFFFFFF) (pattern := 0x00500000000)
    (by decide) (by decide) (range_fits 0x05 0x05 0xff 0x05 (by decide +kernel) h)

theorem rdUnmapped06to07 (a : Index) : Statement (.rdUnmapped06to07 a) :=
  fun h => rd_fits (mask := 0x3FEFFFFFFFF) (pattern := 0x00600000000)
    (by decide) (by decide) (range_fits 0x06 0x07 0xfe 0x06 (by decide +kernel) h)

theorem rdUnmapped0Cto0F (a : Index) : Statement (.rdUnmapped0Cto0F a) :=
  fun h => rd_fits (mask := 0x3FCFFFFFFFF) (pattern := 0x00C00000000)
    (by decide) (by decide) (range_fits 0x0c 0x0f 0xfc 0x0c (by decide +kernel) h)

theorem rdUnmapped14to17 (a : Index) : Statement (.rdUnmapped14to17 a) :=
  fun h => rd_fits (mask := 0x3FCFFFFFFFF) (pattern := 0x01400000000)
    (by decide) (by decide) (range_fits 0x14 0x17 0xfc 0x14 (by decide +kernel) h)

theorem rdUnmapped18to1F (a : Index) : Statement (.rdUnmapped18to1F a) :=
  fun h => rd_fits (mask := 0x3F8FFFFFFFF) (pattern := 0x01800000000)
    (by decide) (by decide) (range_fits 0x18 0x1f 0xf8 0x18 (by decide +kernel) h)

theorem rdUnmapped20to3F (a : Index) : Statement (.rdUnmapped20to3F a) :=
  fun h => rd_fits (mask := 0x3E0FFFFFFFF) (pattern := 0x02000000000)
    (by decide) (by decide) (range_fits 0x20 0x3f 0xe0 0x20 (by decide +kernel) h)

theorem rdUnmapped40to7F (a : Index) : Statement (.rdUnmapped40to7F a) :=
  fun h => rd_fits (mask := 0x3C0FFFFFFFF) (pattern := 0x04000000000)
    (by decide) (by decide) (range_fits 0x40 0x7f 0xc0 0x40 (by decide +kernel) h)

theorem wrUnmapped05 (a : Index) (d : Data) : Statement (.wrUnmapped05 a d) :=
  fun h => wr_fits (mask := 0x3FF00000000) (pattern := 0x10500000000)
    (by decide) (by decide) (by decide) (range_fits 0x05 0x05 0xff 0x05 (by decide +kernel) h)

theorem wrUnmapped06to07 (a : Index) (d : Data) : Statement (.wrUnmapped06to07 a d) :=
  fun h => wr_fits (mask := 0x3FE00000000) (pattern := 0x10600000000)
    (by decide) (by decide) (by decide) (range_fits 0x06 0x07 0xfe 0x06 (by decide +kernel) h)

theorem wrUnmapped0Cto0F (a : Index) (d : Data) : Statement (.wrUnmapped0Cto0F a d) :=
  fun h => wr_fits (mask := 0x3FC00000000) (pattern := 0x10C00000000)
    (by decide) (by decide) (by decide) (range_fits 0x0c 0x0f 0xfc 0x0c (by decide +kernel) h)

theorem wrUnmapped14to17 (a : Index) (d : Data) : Statement (.wrUnmapped14to17 a d) :=
  fun h => wr_fits (mask := 0x3FC00000000) (pattern := 0x11400000000)
    (by decide) (by decide) (by decide) (range_fits 0x14 0x17 0xfc 0x14 (by decide +kernel) h)

theorem wrUnmapped18to1F (a : Index) (d : Data) : Statement (.wrUnmapped18to1F a d) :=
  fun h => wr_fits (mask := 0x3F800000000) (pattern := 0x11800000000)
    (by decide) (by decide) (by decide) (range_fits 0x18 0x1f 0xf8 0x18 (by decide +kernel) h)

theorem wrUnmapped20to3F (a : Index) (d : Data) : Statement (.wrUnmapped20to3F a d) :=
  fun h => wr_fits (mask := 0x3E000000000) (pattern := 0x12000000000)
    (by decide) (by decide) (by decide) (range_fits 0x20 0x3f 0xe0 0x20 (by decide +kernel) h)

theorem wrUnmapped40to7F (a : Index) (d : Data) : Statement (.wrUnmapped40to7F a d) :=
  fun h => wr_fits (mask := 0x3C000000000) (pattern := 0x14000000000)
    (by decide) (by decide) (by decide) (range_fits 0x40 0x7f 0xc0 0x40 (by decide +kernel) h)

end Sys2Proof.Laws.EncodeFitsRow
end

