-- ==== Sys2Proof/Laws/PhasePwm.lean ====
section
/-! SUPPORT. What one PWM tick does to PHPWM (`41_phase_pwm.md` R77 to R81). -/

namespace Sys2Proof.Machine

variable {c : Config} {p : Phpwm}

theorem isFlip_iff : isFlip c p = true ↔ p.cnt + 1 = c.phaseTicks := by rw [isFlip, decide_eq_true_eq]

theorem nextPhase_of_flip (h : p.cnt + 1 = c.phaseTicks) : nextPhase c p = p.phase.other := by
  simp [nextPhase, isFlip_iff.mpr h]

theorem nextPhase_of_not_flip (h : p.cnt + 1 ≠ c.phaseTicks) : nextPhase c p = p.phase := by
  have : ¬ isFlip c p = true := fun e => h (isFlip_iff.mp e)
  simp [nextPhase, this]

theorem nextCnt_of_flip (h : p.cnt + 1 = c.phaseTicks) : nextCnt c p = 0 := by
  simp [nextCnt, isFlip_iff.mpr h]

/-- A count that fits goes on by one outside a flip. -/
theorem nextCnt_of_not_flip (hw : c.phaseTicks ≤ 2 ^ c.cntW) (hc : p.cnt < c.phaseTicks)
    (h : p.cnt + 1 ≠ c.phaseTicks) : nextCnt c p = p.cnt + 1 := by
  have hf : ¬ isFlip c p = true := fun e => h (isFlip_iff.mp e)
  rw [nextCnt, if_neg hf]
  exact trunc_of_lt (by omega)

/-- The count stays below `PHASE_TICKS`. -/
theorem nextCnt_lt (hw : c.phaseTicks ≤ 2 ^ c.cntW) (hc : p.cnt < c.phaseTicks) : nextCnt c p < c.phaseTicks := by
  by_cases h : p.cnt + 1 = c.phaseTicks
  · rw [nextCnt_of_flip h]; omega
  · rw [nextCnt_of_not_flip hw hc h]; omega

theorem nextTicks_lt (c : Config) (p : Phpwm) : nextTicks c p < 2 ^ c.tkw := trunc_lt _ _

@[simp] theorem nextPins_length (c : Config) (p : Phpwm) : (nextPins c p).length = c.nPin := by
  unfold nextPins
  split <;> simp

@[simp] theorem pinsThenVisible_length (c : Config) (p : Phpwm) : (pinsThenVisible c p).length = c.nPin := by
  simp [pinsThenVisible]

/-- Under halt no pin is asserted after the tick. -/
theorem nextPins_of_halt (h : p.halt = true) (j : Nat) : Pins.get (nextPins c p) j = false := by
  simp [nextPins, h]

/-- At a flip the pins of the phase entered are asserted, but for those whose level is already reached, and no others. -/
theorem nextPins_of_flip (hh : p.halt = false) (hf : p.cnt + 1 = c.phaseTicks) (j : Nat) :
    Pins.get (nextPins c p) j = true ↔
      j < c.nPin ∧ c.pinPh j = p.phase.other ∧
        ¬(levelAt p (c.pinCh j) = 0 ∧ levelAt p (c.pinCh j) < c.levelMax) := by
  simp only [nextPins, hh, Bool.false_eq_true, if_false, get_compare, pinsBeforeCompare, isFlip_iff.mpr hf, if_true,
    get_enter, pinsThenVisible, get_leave, nextPhase_of_flip hf, nextCnt_of_flip hf]
  by_cases h1 : j < c.nPin <;> by_cases h2 : c.pinPh j = p.phase.other <;> simp [h1, h2]

/-- At any other tick a pin stays asserted unless its level is reached by the new count. -/
theorem nextPins_of_not_flip (hh : p.halt = false) (hf : p.cnt + 1 ≠ c.phaseTicks) (j : Nat) :
    Pins.get (nextPins c p) j = true ↔
      j < c.nPin ∧ Pins.get p.pin j = true ∧
        ¬(c.pinPh j = p.phase ∧ levelAt p (c.pinCh j) ≤ nextCnt c p ∧ levelAt p (c.pinCh j) < c.levelMax) := by
  have hf' : ¬ isFlip c p = true := fun e => hf (isFlip_iff.mp e)
  simp only [nextPins, hh, Bool.false_eq_true, if_false, get_compare, pinsBeforeCompare, hf',
    nextPhase_of_not_flip hf]

end Sys2Proof.Machine
end

