-- ==== Sys2Proof/Machine/Text.lean ====
section
/-! DEFINITION. The textual syntax of traces (`30_encoding.md` R61, R62): the line that spells an operation, and the
operations that a line spells. The step does not need this file. -/

namespace Sys2Proof.Machine

/-- `RD <name>` (R61). -/
def rdText (name : String) : String := "RD " ++ name

/-- `WR <name>, <value>`, the value in decimal (R61). -/
def wrText (name : String) (d : Data) : String := "WR " ++ name ++ ", " ++ toString d.toNat

/-- `PWM_LEVELi` (`10_state.md` R22). -/
def levelName (i : Fin 4) : String := "PWM_LEVEL" ++ toString i.val

/-- `IR_RAWBUF[k]` (`10_state.md` R22). -/
def rawbufName (k : Fin 128) : String := "IR_RAWBUF[" ++ toString k.val ++ "]"

/-- The hexadecimal digit of a number below 16, a letter in upper case as the spec writes it. -/
def hexDigit (n : Nat) : Char := (Nat.digitChar n).toUpper

/-- A bare index as two hexadecimal digits after `0x` (R61). -/
def indexName (a : Index) : String := "0x" ++ String.ofList [hexDigit (a.toNat / 16), hexDigit (a.toNat % 16)]

/-- The line that spells an operation in a trace (R61). -/
def traceLine : Instr → String
  | .pwmtick => "PWMTICK"
  | .irtick s => if s then "IRTICK 1" else "IRTICK 0"
  | .reset => "RESET"
  | .rdPwmCtrl => rdText "PWM_CTRL"
  | .wrPwmCtrl d => wrText "PWM_CTRL" d
  | .rdPwmPhase => rdText "PWM_PHASE"
  | .rdPwmCnt => rdText "PWM_CNT"
  | .rdPwmTicks => rdText "PWM_TICKS"
  | .rdPwmPins => rdText "PWM_PINS"
  | .rdPwmLevel i => rdText (levelName i)
  | .wrPwmLevel i d => wrText (levelName i) d
  | .rdIrState => rdText "IR_STATE"
  | .rdIrCtrl => rdText "IR_CTRL"
  | .wrIrCtrl d => wrText "IR_CTRL" d
  | .rdIrTimer => rdText "IR_TIMER"
  | .rdIrRawlen => rdText "IR_RAWLEN"
  | .rdIrRawbuf k => rdText (rawbufName k)
  | .wrPwmPhase d => wrText "PWM_PHASE" d
  | .wrPwmCnt d => wrText "PWM_CNT" d
  | .wrPwmTicks d => wrText "PWM_TICKS" d
  | .wrPwmPins d => wrText "PWM_PINS" d
  | .wrIrState d => wrText "IR_STATE" d
  | .wrIrTimer d => wrText "IR_TIMER" d
  | .wrIrRawlen d => wrText "IR_RAWLEN" d
  | .wrIrRawbuf k d => wrText (rawbufName k) d
  | .rdUnmapped05 a | .rdUnmapped06to07 a | .rdUnmapped0Cto0F a | .rdUnmapped14to17 a
  | .rdUnmapped18to1F a | .rdUnmapped20to3F a | .rdUnmapped40to7F a => rdText (indexName a)
  | .wrUnmapped05 a d | .wrUnmapped06to07 a d | .wrUnmapped0Cto0F a d | .wrUnmapped14to17 a d
  | .wrUnmapped18to1F a d | .wrUnmapped20to3F a d | .wrUnmapped40to7F a d => wrText (indexName a) d

/-- The line that spells a pseudo-operation (R62). -/
def pseudoLine : Pseudo → String
  | .pwmticks n => "PWMTICKS " ++ toString n
  | .marks n => "MARKS " ++ toString n
  | .spaces n => "SPACES " ++ toString n
  | .resume => "RESUME"
  | .halt => "HALT"
  | .unhalt => "UNHALT"
  | .setlevel i v => "SETLEVEL " ++ toString i.val ++ ", " ++ toString v.toNat

/-! ### Reading a line -/

/-- What a line of a trace says: the operations it stands for, and the value the trace expects of a `RD`. -/
structure TraceLine where
  ops : List Instr
  expected : Option Data
deriving DecidableEq, Repr

/-- One more character, read from the right, in front of the tokens already read: blanks separate, a comma is a token of
its own, any other character joins the token it touches. The flag says that the first token is still open. -/
def pushChar (c : Char) (acc : Bool × List (List Char)) : Bool × List (List Char) :=
  if c = ' ' ∨ c = '\t' then (false, acc.2)
  else if c = ',' then (false, [','] :: acc.2)
  else
    match acc with
    | (true, t :: ts) => (true, (c :: t) :: ts)
    | (_, ts) => (true, [c] :: ts)

/-- The tokens of a line; a semicolon starts a comment (R61). -/
def tokens (line : String) : List String :=
  ((line.toList.takeWhile (· ≠ ';')).foldr pushChar (false, [])).2.map String.ofList

/-- The value of a digit in the given base. -/
def digitValue (base : Nat) (c : Char) : Option Nat :=
  let n :=
    if '0' ≤ c ∧ c ≤ '9' then c.toNat - '0'.toNat
    else if 'a' ≤ c ∧ c ≤ 'f' then c.toNat - 'a'.toNat + 10
    else if 'A' ≤ c ∧ c ≤ 'F' then c.toNat - 'A'.toNat + 10
    else base
  if n < base then some n else none

/-- The number that digits spell after the number `n`. -/
def digitsValue (base : Nat) : Nat → List Char → Option Nat
  | n, [] => some n
  | n, c :: cs => (digitValue base c).bind fun d => digitsValue base (n * base + d) cs

/-- A number, decimal or `0x` hexadecimal (R61). -/
def parseNumber (t : String) : Option Nat :=
  match t.toList with
  | [] => none
  | ['0', 'x'] => none
  | '0' :: 'x' :: cs => digitsValue 16 0 cs
  | cs => digitsValue 10 0 cs

/-- A number below a bound. -/
def parseBelow (bound : Nat) (t : String) : Option Nat := (parseNumber t).filter (decide <| · < bound)

/-- A `<value>`: 32 bits. -/
def parseValue (t : String) : Option Data := (parseBelow (2 ^ 32) t).map (BitVec.ofNat 32)

/-- The registers that have a name of their own, with their indices (`10_state.md` R22). -/
def namedRegisters : List (String × Index) :=
  [("PWM_CTRL", 0x00), ("PWM_PHASE", 0x01), ("PWM_CNT", 0x02), ("PWM_TICKS", 0x03), ("PWM_PINS", 0x04),
    ("PWM_LEVEL0", 0x08), ("PWM_LEVEL1", 0x09), ("PWM_LEVEL2", 0x0A), ("PWM_LEVEL3", 0x0B),
    ("IR_STATE", 0x10), ("IR_CTRL", 0x11), ("IR_TIMER", 0x12), ("IR_RAWLEN", 0x13)]

/-- A buffer register `IR_RAWBUF[k]`. -/
def parseRawbuf (t : String) : Option Index :=
  if t.toList.take 10 = "IR_RAWBUF[".toList ∧ t.toList.getLast? = some ']' then
    (parseBelow 128 (String.ofList (t.toList.drop 10).dropLast)).map fun k => BitVec.ofNat 8 (0x80 + k)
  else none

/-- A `<name>`: a register name, or a bare index (R61). -/
def parseName (t : String) : Option Index :=
  (namedRegisters.lookup t).or ((parseRawbuf t).or ((parseBelow 256 t).map (BitVec.ofNat 8)))

/-- A line with these operations and no expected value. -/
def plainLine (ops : List Instr) : TraceLine := ⟨ops, none⟩

/-- The pseudo-operation that a line's tokens spell (R62). -/
def parsePseudo : List String → Option Pseudo
  | ["PWMTICKS", n] => (parseNumber n).map .pwmticks
  | ["MARKS", n] => (parseNumber n).map .marks
  | ["SPACES", n] => (parseNumber n).map .spaces
  | ["RESUME"] => some .resume
  | ["HALT"] => some .halt
  | ["UNHALT"] => some .unhalt
  | ["SETLEVEL", i, ",", v] =>
    (parseBelow 4 i).bind fun i => (parseValue v).map fun v => .setlevel (BitVec.ofNat 2 i).toFin v
  | _ => none

/-- What a line's tokens spell: an operation, with the value expected of a `RD` after `->`, or a pseudo-operation
(R61, R62); `none` for a line that spells nothing. -/
def parseTokens : List String → Option TraceLine
  | ["PWMTICK"] => some (plainLine [.pwmtick])
  | ["IRTICK", "0"] => some (plainLine [.irtick false])
  | ["IRTICK", "1"] => some (plainLine [.irtick true])
  | ["RESET"] => some (plainLine [.reset])
  | ["RD", name] => (parseName name).map fun a => plainLine [decodeRd a]
  | ["RD", name, "->", v] => (parseName name).bind fun a => (parseValue v).map fun v => ⟨[decodeRd a], some v⟩
  | ["WR", name, ",", v] => (parseName name).bind fun a => (parseValue v).map fun v => plainLine [decodeWr a v]
  | ts => (parsePseudo ts).map fun p => plainLine (expandPseudo p)

/-- What a line of a trace spells. -/
def parseLine (line : String) : Option TraceLine := parseTokens (tokens line)

end Sys2Proof.Machine
end

