-- ==== Sys2Proof/Tests/Slice0.lean ====
section
/-! SUPPORT. The model's own tests: one operation each on a small state, with the results `95_test_vectors.md` gives
(V numbers), and for every statement that has hypotheses a state and operands that meet them. -/

namespace Sys2Proof.Tests

open Sys2Proof.Machine Sys2Proof.Safety

/-! ### Small states -/

/-- Levels 64, 1, 128, 200 as in V21, the default configuration, every buffer entry 7. -/
def base : State where
  cfg := Config.default
  ir := ⟨.idle, 0, 0, List.replicate 100 7⟩
  pwm := ⟨.A, 0, 0, false, [64, 1, 128, 200], [false, false, false, false]⟩
  out := ⟨none, false, []⟩
  ops := []
  draws := 1

/-- `base` with IRRX at (state, timer, length), as V12 writes it. -/
def irAt (x : IrState) (timer : Nat) (len : BitVec 8) : State :=
  { base with ir := ⟨x, timer, len, List.replicate 100 7⟩ }

/-- `base` with PHPWM at (phase, count, ticks, pins), as V21 writes it. -/
def pwmAt (ph : Phase) (cnt ticks : Nat) (pins : Pins) (halt : Bool := false) : State :=
  { base with pwm := ⟨ph, cnt, ticks, halt, [64, 1, 128, 200], pins⟩ }

/-- What `f` sees in the next state. -/
def after {α : Type} (i : Instr) (s : State) (f : State → α) : Option α :=
  match exec i s with
  | .next t => some (f t)
  | _ => none

/-- (state, timer, length) and the entry k. -/
def irView (k : Nat) (t : State) : IrState × Nat × Nat × Nat :=
  (t.ir.state, t.ir.timer, t.ir.rawlen.toNat, irEntry t.ir k)

/-- (phase, count, ticks, pins) and HALT. -/
def pwmView (t : State) : Phase × Nat × Nat × Nat × Bool :=
  (t.pwm.phase, t.pwm.cnt, t.pwm.ticks, (readPins t.cfg t.pwm).toNat, t.pwm.halt)

/-- The value a `RD` returns. -/
def reads (i : Instr) (s : State) : Option Nat := (after i s fun t => t.out.hRdata.map BitVec.toNat).join

/-- Every state element, but for the buffer entries, and the result. -/
def wholeView (t : State) := (t.ir.state, t.ir.timer, t.ir.rawlen, t.pwm, t.out.hRdata)

/-- The operation leaves every state element as it was, in a state where no element is at its reset value. -/
def quietOn (i : Instr) (s : State) : Bool :=
  decide (after i s wholeView = some (s.ir.state, s.ir.timer, s.ir.rawlen, s.pwm, none) ∧
    after i s (fun t => (irEntry t.ir 3, irEntry t.ir 127)) = some (irEntry s.ir 3, irEntry s.ir 127))

/-- A state with no element at its reset value: STOP, pins asserted. -/
def busy : State :=
  { pwmAt .B 10 138 [false, true, false, true] with ir := ⟨.stop, 120, 4, List.replicate 100 7⟩ }

/-! ### WellFormed: each range check refuses a term out of range, on either side -/

theorem test_ill_formed_reads :
    ([.rdUnmapped05 0x04, .rdUnmapped05 0x06, .rdUnmapped06to07 0x05, .rdUnmapped06to07 0x08,
      .rdUnmapped0Cto0F 0x0B, .rdUnmapped0Cto0F 0x10, .rdUnmapped14to17 0x13, .rdUnmapped14to17 0x18,
      .rdUnmapped18to1F 0x17, .rdUnmapped18to1F 0x20, .rdUnmapped20to3F 0x1F, .rdUnmapped20to3F 0x40,
      .rdUnmapped40to7F 0x3F, .rdUnmapped40to7F 0x80] : List Instr).all (fun i => !i.wellFormed) = true := by decide

theorem test_ill_formed_writes :
    ([.wrUnmapped05 0x04 1, .wrUnmapped05 0x06 1, .wrUnmapped06to07 0x05 1, .wrUnmapped06to07 0x08 1,
      .wrUnmapped0Cto0F 0x0B 1, .wrUnmapped0Cto0F 0x10 1, .wrUnmapped14to17 0x13 1, .wrUnmapped14to17 0x18 1,
      .wrUnmapped18to1F 0x17 1, .wrUnmapped18to1F 0x20 1, .wrUnmapped20to3F 0x1F 1, .wrUnmapped20to3F 0x40 1,
      .wrUnmapped40to7F 0x3F 1, .wrUnmapped40to7F 0x80 1] : List Instr).all (fun i => !i.wellFormed) = true := by decide

/-! ### Decoding: words written out from R52 to R58 and V24, every operation at least once -/

theorem test_decode_events :
    decode 0b10_00000000_00000000000000000000000000000000 = .ok .pwmtick ∧
    decode 0b10_00000001_00000000000000000000000000000000 = .ok (.irtick false) ∧
    decode 0b10_00000011_00000000000000000000000000000000 = .ok (.irtick true) ∧
    decode 0b11_00000000_00000000000000000000000000000000 = .ok .reset := by decide

theorem test_decode_rd_pwm :
    decode 0x00000000000 = .ok .rdPwmCtrl ∧ decode 0x00100000000 = .ok .rdPwmPhase ∧
    decode 0x00200000000 = .ok .rdPwmCnt ∧ decode 0b00_00000011_00000000000000000000000000000000 = .ok .rdPwmTicks ∧
    decode 0x00400000000 = .ok .rdPwmPins ∧ decode 0x00800000000 = .ok (.rdPwmLevel 0) ∧
    decode 0x00B00000000 = .ok (.rdPwmLevel 3) := by decide

theorem test_decode_rd_ir :
    decode 0x01000000000 = .ok .rdIrState ∧ decode 0x01100000000 = .ok .rdIrCtrl ∧
    decode 0x01200000000 = .ok .rdIrTimer ∧ decode 0x01300000000 = .ok .rdIrRawlen ∧
    decode 0b00_11100011_00000000000000000000000000000000 = .ok (.rdIrRawbuf 99) ∧
    decode 0x0E400000000 = .ok (.rdIrRawbuf 100) ∧ decode 0x08000000000 = .ok (.rdIrRawbuf 0) := by decide

theorem test_decode_wr_writable :
    decode 0x10000000001 = .ok (.wrPwmCtrl 1) ∧ decode 0b01_00001001_00000000000000000000000001000000 = .ok (.wrPwmLevel 1 64) ∧
    decode 0x109FFFFFF40 = .ok (.wrPwmLevel 1 0xFFFFFF40) ∧ decode 0x10B000000C8 = .ok (.wrPwmLevel 3 200) ∧
    decode 0x11100000001 = .ok (.wrIrCtrl 1) := by decide

theorem test_decode_wr_read_only :
    decode 0x10100000001 = .ok (.wrPwmPhase 1) ∧ decode 0x1020000004D = .ok (.wrPwmCnt 77) ∧
    decode 0x10300000009 = .ok (.wrPwmTicks 9) ∧ decode 0x1040000000F = .ok (.wrPwmPins 0xF) ∧
    decode 0x11000000003 = .ok (.wrIrState 3) ∧ decode 0x11200000063 = .ok (.wrIrTimer 99) ∧
    decode 0x11300000007 = .ok (.wrIrRawlen 7) ∧
    decode 0b01_11111111_00000000000000001010101111001101 = .ok (.wrIrRawbuf 127 0xABCD) := by decide

theorem test_decode_rd_unmapped :
    decode 0x00500000000 = .ok (.rdUnmapped05 0x05) ∧ decode 0x00700000000 = .ok (.rdUnmapped06to07 0x07) ∧
    decode 0x00C00000000 = .ok (.rdUnmapped0Cto0F 0x0C) ∧ decode 0x01700000000 = .ok (.rdUnmapped14to17 0x17) ∧
    decode 0x01800000000 = .ok (.rdUnmapped18to1F 0x18) ∧
    decode 0b00_00101010_00000000000000000000000000000000 = .ok (.rdUnmapped20to3F 0x2A) ∧
    decode 0x07F00000000 = .ok (.rdUnmapped40to7F 0x7F) := by decide

theorem test_decode_wr_unmapped :
    decode 0x10500000002 = .ok (.wrUnmapped05 0x05 2) ∧ decode 0x10600000002 = .ok (.wrUnmapped06to07 0x06 2) ∧
    decode 0x10F00000002 = .ok (.wrUnmapped0Cto0F 0x0F 2) ∧ decode 0x11400000002 = .ok (.wrUnmapped14to17 0x14 2) ∧
    decode 0x11F00000002 = .ok (.wrUnmapped18to1F 0x1F 2) ∧
    decode 0b01_00101010_00000000000000000000000000000111 = .ok (.wrUnmapped20to3F 0x2A 7) ∧
    decode 0x17F00000001 = .ok (.wrUnmapped40to7F 0x7F 1) := by decide

/-- The words V24 calls invalid, and a number that is no word. -/
theorem test_decode_invalid :
    decode 0x20200000000 = .error .evtPwmSample ∧ decode 0x20400000000 = .error .evtIndex ∧
    decode 0x20000000001 = .error .evtData ∧ decode 0x00300000001 = .error .rdData ∧
    decode 0x30100000000 = .error .rstIndex ∧ decode 0x30000000001 = .error .rstData ∧
    decodeNat 0x40000000000 = .error .tooWide := by decide

/-- Words of the encoder against words written out from R53 to R57. -/
theorem test_encode :
    encode (.irtick true) = 0x20300000000 ∧ encode (.wrPwmLevel 2 128) = 0x10A00000080 ∧
    encode (.rdIrRawbuf 3) = 0x08300000000 ∧ encode (.wrUnmapped20to3F 0x2A 7) = 0x12A00000007 := by decide

/-! ### IRTICK (V12) -/

theorem test_irtick_idle_mark :
    [after (.irtick true) (irAt .idle 5 0) (irView 0),
      after (.irtick false) (irAt .idle 98 0) (irView 0),
      after (.irtick false) (irAt .idle 99 0) (irView 0),
      after (.irtick false) (irAt .idle 65535 0) (irView 0),
      after (.irtick false) (irAt .mark 7 1) (irView 1),
      after (.irtick true) (irAt .mark 179 1) (irView 1),
      after (.irtick true) (irAt .mark 0 99) (irView 99)]
    = [some (.idle, 6, 0, 7),
      some (.idle, 0, 0, 7),
      some (.mark, 0, 1, 100),
      some (.mark, 0, 1, 65535),
      some (.mark, 8, 1, 7),
      some (.space, 0, 2, 180),
      some (.stop, 0, 100, 1)] := by decide

theorem test_irtick_space_stop :
    [after (.irtick false) (irAt .space 44 2) (irView 2),
      after (.irtick false) (irAt .space 3 98) (irView 98),
      after (.irtick true) (irAt .space 99 4) (irView 4),
      after (.irtick true) (irAt .space 100 4) (irView 4),
      after (.irtick false) (irAt .space 100 4) (irView 4),
      after (.irtick false) (irAt .stop 101 4) (irView 4),
      after (.irtick true) (irAt .stop 65535 4) (irView 4)]
    = [some (.mark, 0, 3, 45),
      some (.mark, 0, 99, 4),
      some (.space, 100, 4, 7),
      some (.stop, 101, 4, 7),
      some (.mark, 0, 5, 101),
      some (.stop, 0, 4, 7),
      some (.stop, 65535, 4, 7)] := by decide

/-! ### PWMTICK (V21, V18, V20) -/

theorem test_pwmtick :
    [after .pwmtick (pwmAt .A 0 0 [false, false, false, false]) pwmView,
      after .pwmtick (pwmAt .A 127 127 [false, false, false, false]) pwmView,
      after .pwmtick (pwmAt .B 0 128 [false, true, false, true]) pwmView,
      after .pwmtick (pwmAt .A 63 319 [true, false, true, false]) pwmView,
      after .pwmtick (pwmAt .B 10 138 [false, false, false, false]) pwmView]
    = [some (.A, 1, 1, 0x0, false),
      some (.B, 0, 128, 0xA, false),
      some (.B, 1, 129, 0x8, false),
      some (.A, 64, 320, 0x4, false),
      some (.B, 11, 139, 0x0, false)] := by decide

theorem test_pwmtick_flip_halt_wrap :
    after .pwmtick (pwmAt .A 127 127 [false, false, false, false] true) pwmView = some (.B, 0, 128, 0x0, true) ∧
    after .pwmtick (pwmAt .B 127 0xFFFFFFFF [false, false, false, false] true) pwmView = some (.A, 0, 0, 0x0, true) ∧
    after .pwmtick (pwmAt .B 127 255 [false, false, false, true]) (fun t => (t.out.tickEvt, t.out.chPin)) =
      some (true, [[false, false, false, false], [true, false, true, false]]) := by decide

/-- V19, the paired topology: eight pins, channel i on pin 2i in phase A and on pin 2i + 1 in phase B. -/
def paired (ph : Phase) (cnt ticks : Nat) (pins : Pins) : State :=
  { base with
    cfg := { pinMap := [⟨0, .A⟩, ⟨0, .B⟩, ⟨1, .A⟩, ⟨1, .B⟩, ⟨2, .A⟩, ⟨2, .B⟩, ⟨3, .A⟩, ⟨3, .B⟩] }
    pwm := ⟨ph, cnt, ticks, false, [128, 64, 1, 0], pins⟩ }

/-- V19, at n = 128, 129 and 256. -/
theorem test_pwmtick_paired :
    after .pwmtick (paired .A 127 127 (List.replicate 8 false)) pwmView = some (.B, 0, 128, 0x2A, false) ∧
    after .pwmtick (paired .B 0 128 [false, true, false, true, false, true, false, false]) pwmView =
      some (.B, 1, 129, 0x0A, false) ∧
    after .pwmtick (paired .B 127 255 [false, true, false, false, false, false, false, false]) pwmView =
      some (.A, 0, 256, 0x15, false) :=
  ⟨by decide, by decide, by decide⟩

/-! ### Another configuration (R5): two channels of 4 bits on a 0..8 scale of 8-tick half-phases, narrow counters -/

/-- Every parameter at a value of its own; a legal configuration. -/
def small : Config where
  nCh := 2
  levelW := 4
  levelMax := 8
  phaseTicks := 8
  cntW := 3
  tkw := 6
  pinMap := [⟨0, .A⟩, ⟨1, .B⟩, ⟨1, .A⟩]
  gapTicks := 5
  cap := 4
  tw := 8
  tmax := 255

/-- `small`, at the last count of a half-phase A with the tick counter at its greatest value, IRRX at (state, timer, 3). -/
def smallAt (x : IrState) (timer : Nat) : State where
  cfg := small
  ir := ⟨x, timer, 3, [9, 1, 2, 3]⟩
  pwm := ⟨.A, 7, 63, false, [8, 0], [false, false, false]⟩
  out := ⟨none, false, []⟩
  ops := []
  draws := 1

theorem test_small_legal : small.wf ∧ MachineInv (smallAt .mark 3) :=
  ⟨by decide, by decide⟩

/-- The flip comes at the eighth tick, the tick counter wraps at 2^6, the timer saturates at 255 and the fourth entry
overflows. -/
theorem test_small_ticks :
    after .pwmtick (smallAt .mark 3) pwmView = some (.B, 0, 0, 0x0, false) ∧
    after (.irtick true) (smallAt .mark 255) (irView 3) = some (.stop, 0, 4, 255) := by decide

/-- A level holds 4 bits; indices of no channel read 0 and ignore writes; entry 4 reads 0. -/
theorem test_small_host :
    after (.wrPwmLevel 1 0x1D) (smallAt .mark 3) (fun t => t.pwm.level) = some [8, 13] ∧
    after (.wrPwmLevel 2 0x1D) (smallAt .mark 3) (fun t => t.pwm.level) = some [8, 0] ∧
    reads (.rdPwmLevel 0) (smallAt .mark 3) = some 8 ∧ reads (.rdPwmLevel 3) (smallAt .mark 3) = some 0 ∧
    reads (.rdIrRawbuf 3) (smallAt .mark 3) = some 3 ∧ reads (.rdIrRawbuf 4) (smallAt .mark 3) = some 0 := by decide

/-- A scale whose top is one below the half-phase (`93_implementation_defined.md` U8): level 127 holds the pin through the
last interval, level 126 does not. -/
def scaleAt (cnt : Nat) (pins : Pins) : State :=
  { base with cfg := { levelMax := 127 }, pwm := ⟨.B, cnt, 128 + cnt, false, [0, 127, 0, 126], pins⟩ }

theorem test_other_scale :
    after .pwmtick (scaleAt 126 [false, true, false, false]) pwmView = some (.B, 127, 255, 0x2, false) ∧
    after .pwmtick (scaleAt 125 [false, true, false, true]) pwmView = some (.B, 126, 254, 0x2, false) := by decide

/-! ### Host operations (V16, V21, V22, and the examples of R87 to R104) -/

theorem test_reads_pwm :
    reads .rdPwmCtrl (pwmAt .A 0 0 [false, false, false, false] true) = some 1 ∧ reads .rdPwmPhase busy = some 1 ∧
    reads .rdPwmCnt busy = some 10 ∧ reads .rdPwmTicks (pwmAt .B 127 0xFFFFFFFF []) = some 0xFFFFFFFF ∧
    reads .rdPwmPins busy = some 0xA ∧ reads (.rdPwmLevel 3) busy = some 200 := by decide

theorem test_reads_ir :
    reads .rdIrState busy = some 3 ∧ reads .rdIrCtrl busy = some 0 ∧ reads .rdIrTimer busy = some 120 ∧
    reads .rdIrRawlen busy = some 4 ∧ reads (.rdIrRawbuf 99) busy = some 7 ∧ reads (.rdIrRawbuf 100) busy = some 0 := by
  decide

theorem test_reads_unmapped :
    [reads (.rdUnmapped05 0x05) busy, reads (.rdUnmapped06to07 0x06) busy, reads (.rdUnmapped0Cto0F 0x0F) busy,
      reads (.rdUnmapped14to17 0x14) busy, reads (.rdUnmapped18to1F 0x1F) busy, reads (.rdUnmapped20to3F 0x2A) busy,
      reads (.rdUnmapped40to7F 0x7F) busy] = List.replicate 7 (some 0) := by decide

theorem test_halt :
    after (.wrPwmCtrl 1) busy pwmView = some (.B, 10, 138, 0x0, true) ∧
    after (.wrPwmCtrl 0xFFFFFFFE) (pwmAt .B 10 138 [false, false, false, false] true) pwmView =
      some (.B, 10, 138, 0x0, false) := by decide

theorem test_setlevel :
    after (.wrPwmLevel 0 0x180) busy (fun t => (t.pwm.level, t.pwm.pin)) =
      some ([128, 1, 128, 200], [false, true, false, true]) := by decide

theorem test_resume :
    after (.wrIrCtrl 1) busy (irView 0) = some (.idle, 120, 0, 7) ∧
    after (.wrIrCtrl 2) busy (irView 0) = some (.stop, 120, 4, 7) ∧
    after (.wrIrCtrl 1) (irAt .space 50 4) (irView 0) = some (.space, 50, 4, 7) := by decide

theorem test_read_only_writes :
    ([.wrPwmPhase 0, .wrPwmCnt 77, .wrPwmTicks 9, .wrPwmPins 0xF, .wrIrState 1, .wrIrTimer 99, .wrIrRawlen 7,
      .wrIrRawbuf 3 0xABCD] : List Instr).all (quietOn · busy) = true := by decide

theorem test_unmapped_writes :
    ([.wrUnmapped05 0x05 1, .wrUnmapped06to07 0x07 1, .wrUnmapped0Cto0F 0x0C 1, .wrUnmapped14to17 0x17 1,
      .wrUnmapped18to1F 0x18 1, .wrUnmapped20to3F 0x2A 7, .wrUnmapped40to7F 0x40 1] : List Instr).all (quietOn · busy)
      = true := by decide

theorem test_reset :
    after .reset busy pwmView = some (.A, 0, 0, 0x0, false) ∧
    after .reset busy (fun t => (t.pwm.level, t.ir.state, t.ir.timer, t.ir.rawlen, t.ir.rawbuf.length)) =
      some ([0, 0, 0, 0], .idle, 0, 0, 100) := by decide

/-! ### The step, the ports and the text -/

/-- The word of `SETLEVEL 1, 64` is presented, fetched and performed. -/
theorem test_step_performs :
    (match step (State.reset.withFetchWord 48 0x10900000040) with
      | .next t => some (t.pwm.level, t.ops)
      | _ => none) = some ([0, 64, 0, 0], []) := by decide

/-- V25 (a): the read in the cycle of a tick returns the value after the tick. -/
theorem test_cycle_read_after_tick :
    (match cycle ⟨false, true, false, false, true, false, 0x03, 0⟩ (pwmAt .A 7 7 [false, false, false, false]) with
      | .next t => (t.out.hRdata, t.out.tickEvt)
      | _ => (none, false)) = (some 8, true) := by decide

/-- V25 (b): a flip and a HALT in one cycle, with what `ch_pin` shows in it. -/
theorem test_cycle_halt_after_flip :
    (match cycle ⟨false, true, false, false, true, true, 0x00, 1⟩ (pwmAt .A 127 127 [false, false, false, false]) with
      | .next t => some (pwmView t, t.out.chPin)
      | _ => none) =
    some ((.B, 0, 128, 0x0, true),
      [[false, false, false, false], [false, true, false, true], [false, false, false, false]]) := by decide

/-- R61: the spellings of some operations. -/
theorem test_text :
    traceLine (.wrPwmLevel 1 64) = "WR PWM_LEVEL1, 64" ∧ traceLine (.rdIrRawbuf 3) = "RD IR_RAWBUF[3]" ∧
    traceLine (.rdUnmapped20to3F 0x2A) = "RD 0x2A" ∧ pseudoLine (.setlevel 0 64) = "SETLEVEL 0, 64" := by
  refine ⟨?_, ?_, ?_, ?_⟩ <;> rfl

/-- R61, R62: what some lines spell, and some lines that spell nothing. -/
theorem test_parse :
    parseLine "IRTICK 1 ; a space" = some ⟨[.irtick true], none⟩ ∧
    parseLine "WR PWM_LEVEL1, 0x40" = some ⟨[.wrPwmLevel 1 64], none⟩ ∧
    parseLine "RD IR_RAWBUF[3] -> 11" = some ⟨[.rdIrRawbuf 3], some 11⟩ ∧
    parseLine "RD 0x2A" = some ⟨[.rdUnmapped20to3F 0x2A], none⟩ ∧
    parseLine "SPACES 3" = some ⟨[.irtick true, .irtick true, .irtick true], none⟩ ∧
    parseLine "SETLEVEL 3, 200" = some ⟨[.wrPwmLevel 3 200], none⟩ ∧
    parseLine "WR PWM_LEVEL1 64" = none ∧ parseLine "RD IR_RAWBUF[128]" = none ∧ parseLine "IRTICK 2" = none := by
  decide

/-! ### Witnesses: states and operands that meet the hypotheses of each statement, clause by clause -/

/-- SPACE after two entries, the gap of 100 ticks first. -/
def framed : State := { base with ir := ⟨.space, 3, 2, List.replicate 100 100⟩, ops := [0x20100000000] }

theorem witness_DecodeOfEncode :
    ([.rdUnmapped05 0x05, .rdUnmapped06to07 0x06, .rdUnmapped06to07 0x07, .rdUnmapped0Cto0F 0x0C,
      .rdUnmapped0Cto0F 0x0F, .rdUnmapped14to17 0x14, .rdUnmapped14to17 0x17, .rdUnmapped18to1F 0x18,
      .rdUnmapped18to1F 0x1F, .rdUnmapped20to3F 0x20, .rdUnmapped20to3F 0x3F, .rdUnmapped40to7F 0x40,
      .wrUnmapped40to7F 0x7F 1, .wrIrRawbuf 127 0xFFFFFFFF, .irtick true] : List Instr).all Instr.wellFormed = true := by
  decide

theorem witness_EncodeOfDecode : decode 0x17F00000001 = .ok (.wrUnmapped40to7F 0x7F 1) := by decide

theorem witness_DecoderFollowsOperationMap :
    decode 0x0FF00000000 = .ok (.rdIrRawbuf 127) ∧
    (0x0FF00000000 : OpWord) &&& (opRow (.rdIrRawbuf 0)).mask = (opRow (.rdIrRawbuf 0)).pattern ∧
    (0x0FF00000000 : OpWord) &&& (opRow .rdIrState).mask ≠ (opRow .rdIrState).pattern := by decide

theorem witness_InvalidWordsAreRefused :
    (base.withOps [0x20400000000]).ops = 0x20400000000 :: [] ∧
    (∃ e, decode 0x20400000000 = .error e) ∧ (∃ e, decode 0x20200000000 = .error e) ∧
    (∃ e, decode 0x2FF00000000 = .error e) ∧ (∃ e, decode 0x20000000001 = .error e) ∧
    (∃ e, decode 0x00000000001 = .error e) ∧ (∃ e, decode 0x30100000000 = .error e) ∧
    (∃ e, decode 0x30000000001 = .error e) :=
  ⟨rfl, ⟨_, rfl⟩, ⟨_, rfl⟩, ⟨_, rfl⟩, ⟨_, rfl⟩, ⟨_, rfl⟩, ⟨_, rfl⟩, ⟨_, rfl⟩⟩

theorem witness_StepPerformsDecodedOperation :
    (base.withOps [0x20000000000]).ops = 0x20000000000 :: [] ∧ decode 0x20000000000 = .ok .pwmtick ∧
    decodeTableWord 48 0x20000000000 = some .pwmtick ∧ decodeTableWord 48 0x17F00000001 = some (.wrUnmapped40to7F 0x7F 1) := by
  decide

theorem witness_IdleStepChangesNothing : State.reset.ops = [] := rfl

theorem witness_LevelReadsAsWritten_LevelWrite :
    (MachineInv busy ∧ (3 : Fin 4).val < busy.cfg.nCh ∧ (0 : Fin 4) ≠ 3 ∧ (0 : Fin 4).val < busy.cfg.nCh) ∧
    (MachineInv (smallAt .mark 3) ∧ (1 : Fin 4).val < (smallAt .mark 3).cfg.nCh) :=
  ⟨⟨by decide, by decide, by decide, by decide⟩, by decide, by decide⟩

theorem witness_LevelIndexOfNoChannelIsUnmapped : (smallAt .mark 3).cfg.nCh ≤ (2 : Fin 4).val := by decide

theorem witness_BufferReads :
    (99 : Fin 128).val < base.cfg.cap ∧ base.cfg.cap ≤ (100 : Fin 128).val ∧ base.cfg.cap ≤ (127 : Fin 128).val := by decide

theorem witness_UnmappedReadsGiveZero_UnmappedWritesHaveNoEffect :
    ([0x05, 0x07, 0x0C, 0x0F, 0x14, 0x7F] : List Index).all (fun a => decide (Unmapped a)) = true ∧
    ([0x04, 0x08, 0x0B, 0x10, 0x13, 0x80] : List Index).all (fun a => !decide (Unmapped a)) = true := by decide

theorem witness_ReadOnlyWritesHaveNoEffect :
    ([0x01, 0x04, 0x10, 0x12, 0x13, 0x80, 0xFF] : List Index).all (fun a => decide (ReadOnly a)) = true ∧
    ([0x00, 0x05, 0x08, 0x0B, 0x11, 0x7F] : List Index).all (fun a => !decide (ReadOnly a)) = true := by decide

theorem witness_HaltWrite :
    (1 : Data).getLsbD 0 = true ∧ (0xFFFFFFFE : Data).getLsbD 0 = false ∧
    MachineInv (irAt .idle 0 0) ∧ (irAt .idle 0 0).pwm.halt = (0xFFFFFFFE : Data).getLsbD 0 ∧
    MachineInv (pwmAt .A 5 5 [false, false, false, false] true) ∧
    (pwmAt .A 5 5 [false, false, false, false] true).pwm.halt = (1 : Data).getLsbD 0 :=
  ⟨by decide, by decide, by decide, by decide, by decide, by decide⟩

theorem witness_ResumeCommand :
    ((1 : Data).getLsbD 0 = true ∧ busy.ir.state = .stop) ∧ ¬((2 : Data).getLsbD 0 = true ∧ busy.ir.state = .stop) ∧
    ¬((1 : Data).getLsbD 0 = true ∧ (irAt .mark 0 1).ir.state = .stop) := by decide

theorem witness_ReservedBitsHaveNoEffect :
    MachineInv busy ∧ (∀ n < implementedWidth base.cfg 0x0B, (0x80 : Data).getLsbD n = (0xFFFFFF80 : Data).getLsbD n) ∧
    (∀ n < implementedWidth base.cfg 0x00, (1 : Data).getLsbD n = (0xFFFFFFFF : Data).getLsbD n) ∧
    implementedWidth base.cfg 0x04 ≤ 4 ∧ implementedWidth small 0x0B ≤ 0 :=
  ⟨by decide, by decide, by decide, by decide, by decide⟩

theorem witness_SampleInIdle :
    (MachineInv (irAt .idle 98 0) ∧ (irAt .idle 98 0).ir.state = .idle) ∧
    (MachineInv (irAt .idle 99 0) ∧ (irAt .idle 99 0).ir.state = .idle) ∧
    tickCount (irAt .idle 98 0) < (irAt .idle 98 0).cfg.gapTicks ∧
    (irAt .idle 99 0).cfg.gapTicks ≤ tickCount (irAt .idle 99 0) :=
  ⟨⟨by decide, rfl⟩, ⟨by decide, rfl⟩, by decide, by decide⟩

theorem witness_SampleInMark :
    (MachineInv (irAt .mark 179 1) ∧ (irAt .mark 179 1).ir.state = .mark) ∧
    (MachineInv (irAt .mark 65535 99) ∧ (irAt .mark 65535 99).ir.state = .mark) :=
  ⟨⟨by decide, rfl⟩, by decide, rfl⟩

theorem witness_SampleInSpace :
    (MachineInv (irAt .space 99 2) ∧ (irAt .space 99 2).ir.state = .space) ∧
    (MachineInv (irAt .space 100 98) ∧ (irAt .space 100 98).ir.state = .space) :=
  ⟨⟨by decide, rfl⟩, by decide, rfl⟩

theorem witness_ResetOperation :
    Instr.irtick true ≠ .reset ∧ Instr.irtick true ≠ .pwmtick ∧ (∀ b, Instr.pwmtick ≠ .irtick b) ∧
    ∃ t, exec .pwmtick busy = .next t :=
  ⟨by decide, by decide, by decide, _, rfl⟩

theorem witness_SamplesInStop :
    busy.ir.state = .stop ∧ ∃ t, exec (.wrIrCtrl 1) busy = .next t ∧ t.ir.state ≠ .stop :=
  ⟨rfl, _, rfl, by decide⟩

theorem witness_FrameIsFrozenUntilResume :
    (∀ i ∈ ([.irtick false, .irtick true, .pwmtick, .wrIrCtrl 2, .wrPwmCtrl 1, .wrIrRawbuf 0 5, .rdIrState] : List Instr),
      endsFrame i = false) ∧ busy.ir.state = .stop := by decide

theorem witness_MarkOfManyTicksIsRecorded :
    MachineInv (irAt .mark 0 1) ∧ (irAt .mark 0 1).ir.state = .mark ∧ (irAt .mark 0 1).ir.timer = 0 := by decide

theorem witness_SpaceOfManyTicksIsRecorded :
    MachineInv (irAt .space 0 2) ∧ (irAt .space 0 2).ir.state = .space ∧ (irAt .space 0 2).ir.timer = 0 ∧
    100 ≤ (irAt .space 0 2).cfg.gapTicks :=
  ⟨by decide, rfl, rfl, by decide⟩

theorem witness_FrameEndsAfterGap :
    (irAt .space 0 4).cfg.wf ∧ (irAt .space 0 4).ir.state = .space ∧ (irAt .space 0 4).ir.timer = 0 := by decide

theorem witness_CaptureStartsAfterLeadingGap :
    MachineInv (irAt .idle 0 0) ∧ (irAt .idle 0 0).ir.state = .idle ∧ (irAt .idle 0 0).ir.timer = 0 ∧
    98 + 1 < (irAt .idle 0 0).cfg.gapTicks ∧ (irAt .idle 0 0).cfg.gapTicks ≤ 99 + 1 :=
  ⟨by decide, rfl, rfl, by decide, by decide⟩

theorem witness_OverflowComesFromMark :
    MachineInv (irAt .mark 0 99) ∧ (irAt .mark 0 99).cfg.cap % 2 = 0 ∧ (irAt .mark 0 99).ir.state ≠ .stop ∧
    after (.irtick true) (irAt .mark 0 99) (fun t => decide (t.ir.rawlen.toNat = t.cfg.cap)) = some true :=
  ⟨by decide, by decide, by decide, by decide⟩

theorem witness_CaptureStateEdges :
    (MachineInv (irAt .mark 0 99) ∧ ∃ t, exec (.irtick true) (irAt .mark 0 99) = .next t ∧ t.ir.state = .stop) ∧
    (MachineInv busy ∧ ∃ t, exec (.wrIrCtrl 1) busy = .next t ∧ t.ir.state = .idle) :=
  ⟨⟨by decide, _, rfl, by decide⟩, by decide, _, rfl, by decide⟩

theorem witness_EntriesChangeOnlyByRecord :
    MachineInv (irAt .mark 179 1) ∧ (Instr.irtick true) ≠ .reset ∧
    ∃ t, exec (.irtick true) (irAt .mark 179 1) = .next t ∧ irEntry t.ir 1 ≠ irEntry (irAt .mark 179 1).ir 1 :=
  ⟨by decide, by decide, _, rfl, by decide⟩

theorem witness_FrameContractIsKept :
    MachineInv framed ∧ frameContract framed.cfg framed.ir ∧ ∃ t, step framed = .next t ∧ t.ir.rawlen = 3 :=
  ⟨by decide, by decide, _, rfl, by decide⟩

theorem witness_TickAdvancesCounters :
    (Instr.wrPwmCnt 5 ≠ .pwmtick ∧ Instr.wrPwmCnt 5 ≠ .reset) ∧ atFlip (pwmAt .A 127 127 []) ∧
    ¬atFlip (pwmAt .A 126 126 []) ∧ MachineInv (pwmAt .A 126 126 [false, false, false, false]) :=
  ⟨by decide, by decide, by decide, by decide⟩

theorem witness_PinsAfterTick_PinsAfterTickAtAnyScale :
    (3 < base.cfg.nPin ∧ (pwmAt .A 0 0 [] true).pwm.halt = true ∧
      ((pwmAt .A 127 127 []).pwm.halt = false ∧ atFlip (pwmAt .A 127 127 [])) ∧
      ((pwmAt .A 126 126 []).pwm.halt = false ∧ ¬atFlip (pwmAt .A 126 126 []))) ∧
    ((MachineInv busy ∧ ¬atFlip busy) ∧ MachineInv (pwmAt .A 127 127 [false, false, false, false])) ∧
    busy.cfg.phaseTicks ≤ busy.cfg.levelMax :=
  ⟨⟨by decide, by decide, by decide, by decide⟩, ⟨⟨by decide, by decide⟩, by decide⟩, by decide⟩

theorem witness_FlipBreaksBeforeMake :
    (MachineInv (pwmAt .B 127 255 [false, false, false, true]) ∧ atFlip (pwmAt .B 127 255 [false, false, false, true])) ∧
    (MachineInv busy ∧ ¬atFlip busy) :=
  ⟨⟨by decide, rfl⟩, by decide, by decide⟩

theorem witness_HaltKeepsPinsLow :
    MachineInv (pwmAt .A 0 256 [false, false, false, false] true) ∧
    (pwmAt .A 0 256 [false, false, false, false] true).pwm.halt = true ∧
    (pwmAt .A 0 256 [false, false, false, false] true).pwm.cnt + 127 <
      (pwmAt .A 0 256 [false, false, false, false] true).cfg.phaseTicks := by decide

theorem witness_DutyIsExact :
    MachineInv (pwmAt .B 127 255 [false, false, false, true]) ∧
    3 < (pwmAt .B 127 255 [false, false, false, true]).cfg.nPin ∧
    (pwmAt .B 127 255 [false, false, false, true]).pwm.halt = false ∧
    atFlip (pwmAt .B 127 255 [false, false, false, true]) ∧ 127 < base.cfg.phaseTicks ∧
    base.cfg.phaseTicks ≤ base.cfg.levelMax :=
  ⟨by decide, by decide, by decide, by decide, by decide, by decide⟩

theorem witness_DutyAtAnyScale :
    MachineInv (scaleAt 127 [false, true, false, false]) ∧ 1 < (scaleAt 127 []).cfg.nPin ∧
    (scaleAt 127 []).pwm.halt = false ∧ atFlip (scaleAt 127 []) ∧ 127 < (scaleAt 127 []).cfg.phaseTicks :=
  ⟨by decide, by decide, by decide, by decide, by decide⟩

theorem witness_LevelChangeInMidPhase :
    (MachineInv busy ∧ 3 < busy.cfg.nPin ∧ busy.pwm.halt = false ∧ busy.cfg.pinPh 3 = busy.pwm.phase ∧
      busy.cfg.pinCh 3 = (3 : Fin 4).val ∧ busy.pwm.cnt + 117 < busy.cfg.phaseTicks ∧ Pins.get busy.pwm.pin 3 = true) ∧
    (MachineInv (pwmAt .B 20 148 [false, false, false, true]) ∧ busy.cfg.pinPh 1 = Phase.B ∧
      busy.cfg.pinCh 1 = (1 : Fin 4).val ∧ Pins.get (pwmAt .B 20 148 [false, false, false, true]).pwm.pin 1 = false) :=
  ⟨⟨by decide, by decide, by decide, by decide, by decide, by decide, by decide⟩, by decide, by decide, by decide, by decide⟩

theorem witness_PinsRiseOnlyAtFlip :
    ∃ t, exec .pwmtick (pwmAt .A 127 127 [false, false, false, false]) = .next t ∧
      Pins.get (pwmAt .A 127 127 [false, false, false, false]).pwm.pin 1 = false ∧ Pins.get t.pwm.pin 1 = true :=
  ⟨_, rfl, by decide, by decide⟩

theorem witness_NeverBothPhases : MachineInv busy := by decide

theorem witness_PhaseTogglesOnlyAtFlip : Instr.pwmtick ≠ .reset ∧ MachineInv busy := by decide

theorem witness_ManyTicksAddUp : MachineInv (pwmAt .B 127 0xFFFFFFFF [false, false, false, true]) := by decide

theorem witness_NoPinBeforeFirstFlip :
    base.cfg.wf ∧ allLow (pwmAt .A 126 126 [false, false, false, false]).pwm.pin ∧
    (pwmAt .A 126 126 [false, false, false, false]).pwm.cnt +
      ([.wrPwmLevel 0 128, .pwmtick, .irtick false] : List Instr).count .pwmtick <
        base.cfg.phaseTicks := by decide

theorem witness_CountersStayInStep :
    base.cfg.wf ∧ 2 * base.cfg.phaseTicks ∣ 2 ^ base.cfg.tkw ∧
    CountersInStep base.cfg (pwmAt .B 127 0xFFFFFFFF [] |>.withOps [0x20000000000]).pwm ∧
    ∃ t, step (pwmAt .B 127 0xFFFFFFFF [] |>.withOps [0x20000000000]) = .next t ∧ t.pwm.ticks = 0 :=
  ⟨by decide, by decide, by decide, _, rfl, by decide⟩

theorem witness_InvariantIsKept : MachineInv framed ∧ ∃ t, step framed = .next t ∧ t.ir.state = .mark :=
  ⟨by decide, _, rfl, by decide⟩

theorem witness_SingleWriterOwnership :
    (∃ t, exec (.irtick false) (irAt .space 44 2) = .next t ∧ t.ir.state ≠ .space ∧ t.ir.rawlen ≠ 2 ∧
      t.ir.timer ≠ 44 ∧ t.ir.rawbuf ≠ List.replicate 100 7) ∧
    (∃ t, exec (.wrIrCtrl 1) busy = .next t ∧ t.ir.state ≠ busy.ir.state) ∧
    (∃ t, exec .pwmtick (pwmAt .A 127 127 []) = .next t ∧ t.pwm.phase ≠ .A ∧ t.pwm.pin ≠ []) ∧
    (∃ t, exec (.wrPwmCtrl 1) busy = .next t ∧ t.pwm.pin ≠ busy.pwm.pin ∧ t.pwm.halt ≠ busy.pwm.halt) ∧
    (∃ t, exec (.wrPwmLevel 0 5) busy = .next t ∧ t.pwm.level ≠ busy.pwm.level) :=
  ⟨⟨_, rfl, by decide, by decide, by decide, by decide⟩, ⟨_, rfl, by decide⟩, ⟨_, rfl, by decide, by decide⟩,
    ⟨_, rfl, by decide, by decide⟩, ⟨_, rfl, by decide⟩⟩

/-- A cycle with both ticks and a host read, and one with `rst` too. -/
def fullCycle (rst hWe : Bool) : PortIn := ⟨rst, true, true, false, true, hWe, 0x03, 1⟩

theorem witness_CyclePerformsItsOperations : (fullCycle true false).rst = true ∧ base.ops = [] := ⟨rfl, rfl⟩

theorem witness_HostAccessComesAfterTicks :
    ((fullCycle false false).rst = false ∧ (fullCycle false false).hSel = true ∧ (fullCycle false false).hWe = false) ∧
    ((fullCycle false true).rst = false ∧ (fullCycle false true).hSel = true ∧ (fullCycle false true).hWe = true) := by
  decide

end Sys2Proof.Tests
end

/-! What an operation of the block can do, said once: `Effect` for all 39 operations, `IrTickEffect` for an IR tick
on IRRX. The invariants of `10_state.md` are proved from these two and from nothing inside `exec`. -/

namespace Sys2Proof.Proofs

open Sys2Proof.Machine Sys2Proof.Safety

/-! ### What an operation can do -/

/-- The operations that may write the block: the two ticks, `RESET`, and the three effective host writes
(`20_memory.md` R44, `60_exceptions.md` R118). -/
def writesBlock : Instr → Bool
  | .pwmtick | .irtick _ | .reset | .wrPwmCtrl _ | .wrPwmLevel _ _ | .wrIrCtrl _ => true
  | _ => false

/-- `Effect s i t`: performing `i` in `s` leaves `t`. The 33 operations that write no state are one case, in which `v` is
what a `RD` returns. -/
inductive Effect (s : State) : Instr → State → Prop
  | pwmtick : Effect s .pwmtick ((s.withPwm (pwmTick s.cfg s.pwm)).withOut (pwmTickOut s.cfg s.pwm))
  | irtick (b : Bool) : Effect s (.irtick b) (s.withIr (irTick s.cfg b s.ir))
  | reset : Effect s .reset (resetBlock s)
  | wrPwmCtrl (d : Data) : Effect s (.wrPwmCtrl d) (s.withPwm (writeHalt s.cfg (haltOf d) s.pwm))
  | wrPwmLevel (n : Fin 4) (d : Data) :
      Effect s (.wrPwmLevel n d) (s.withPwm (writeLevel s.cfg n (levelOf s.cfg d) s.pwm))
  | wrIrCtrl (d : Data) : Effect s (.wrIrCtrl d) (s.withIr (if resumeOf d then resume s.ir else s.ir))
  | portsOnly (i : Instr) (v : Option Data) (hi : writesBlock i = false) :
      Effect s i (s.withOut { quiet s.pwm with hRdata := v })

/-- Every operation is performed, and does what `Effect` says. -/
theorem exec_effect (i : Instr) (s : State) : ∃ t, exec i s = .next t ∧ Effect s i t := by
  cases i with
  | pwmtick => exact ⟨_, rfl, .pwmtick⟩
  | irtick b => exact ⟨_, rfl, .irtick b⟩
  | reset => exact ⟨_, rfl, .reset⟩
  | wrPwmCtrl d => exact ⟨_, rfl, .wrPwmCtrl d⟩
  | wrPwmLevel n d => exact ⟨_, rfl, .wrPwmLevel n d⟩
  | wrIrCtrl d => exact ⟨_, rfl, .wrIrCtrl d⟩
  | _ => exact ⟨_, rfl, .portsOnly _ _ rfl⟩

theorem effect_of_exec {i : Instr} {s t : State} (h : exec i s = .next t) : Effect s i t := by
  obtain ⟨u, hu, he⟩ := exec_effect i s
  rw [h] at hu
  cases hu
  exact he

/-- A step that goes on is idle, or performs one operation with the word gone from the sequence. -/
theorem step_cases {s t : State} (h : step s = .next t) :
    t = s.withOut (quiet s.pwm) ∨ ∃ i rest, Effect (s.withOps rest) i t := by
  unfold step stepWith at h
  split at h
  case h_1 => exact .inl (Host.Outcome.next.inj h).symm
  case h_2 w rest _ =>
    split at h
    case h_1 i _ => exact .inr ⟨i, rest, effect_of_exec h⟩
    case h_2 => cases h

namespace Effect

variable {s t : State} {i : Instr}

/-- No operation writes the parameters. -/
theorem cfg_eq (h : Effect s i t) : t.cfg = s.cfg := by cases h <;> rfl

/-- Only the PWM tick and `RESET` write the three PWM counters (`20_memory.md` R44). -/
theorem counters_eq (h : Effect s i t) (hp : i ≠ .pwmtick) (hr : i ≠ .reset) :
    t.pwm.ticks = s.pwm.ticks ∧ t.pwm.cnt = s.pwm.cnt ∧ t.pwm.phase = s.pwm.phase := by
  cases h with
  | pwmtick => exact absurd rfl hp
  | reset => exact absurd rfl hr
  | irtick | wrPwmCtrl | wrPwmLevel | wrIrCtrl | portsOnly => exact ⟨rfl, rfl, rfl⟩

end Effect

/-! ### What an IR tick can do -/

/-- `IrTickEffect c ir b ir'`: the sample `b` takes IRRX from `ir` to `ir'` (`40_ir_capture.md` R68 to R71). Whatever is
recorded is the tick count `t1 = satInc c ir.timer`. -/
inductive IrTickEffect (c : Config) (ir : Irrx) : Bool → Irrx → Prop
  | timerOnly (b : Bool) (n : Nat) (hn : n = 0 ∨ n = satInc c ir.timer) : IrTickEffect c ir b { ir with timer := n }
  | capture (hs : ir.state = .idle) (hg : c.gapTicks ≤ satInc c ir.timer) :
      IrTickEffect c ir false (record c (satInc c ir.timer) .mark { ir with rawlen := 0 })
  | endMark (hs : ir.state = .mark) : IrTickEffect c ir true (record c (satInc c ir.timer) .space ir)
  | endSpace (hs : ir.state = .space) : IrTickEffect c ir false (record c (satInc c ir.timer) .mark ir)
  | endFrame (hs : ir.state = .space) (hg : c.gapTicks < satInc c ir.timer) :
      IrTickEffect c ir true { ir with timer := satInc c ir.timer, state := .stop }

theorem irTick_effect (c : Config) (b : Bool) (ir : Irrx) : IrTickEffect c ir b (irTick c b ir) := by
  cases hs : ir.state <;> cases b
  case idle.false =>
    by_cases hg : satInc c ir.timer < c.gapTicks
    · rw [irTick_idle_noise hs hg]; exact .timerOnly _ _ (.inl rfl)
    · rw [irTick_idle_start hs (by omega)]; exact .capture hs (by omega)
  case idle.true => rw [irTick_idle_space hs]; exact .timerOnly _ _ (.inr rfl)
  case mark.false => rw [irTick_mark_mark hs]; exact .timerOnly _ _ (.inr rfl)
  case mark.true => rw [irTick_mark_space hs]; exact .endMark hs
  case space.false => rw [irTick_space_mark hs]; exact .endSpace hs
  case space.true =>
    by_cases hg : c.gapTicks < satInc c ir.timer
    · rw [irTick_space_gap hs hg]; exact .endFrame hs hg
    · rw [irTick_space_space hs (by omega)]; exact .timerOnly _ _ (.inr rfl)
  case stop.false => rw [irTick_stop_mark hs]; exact .timerOnly _ _ (.inl rfl)
  case stop.true => rw [irTick_stop_space hs]; exact .timerOnly _ _ (.inr rfl)

/-! ### IRRX keeps its shape (`10_state.md` R12 to R14, R29, R30) -/

section IrShape

variable {c : Config} {ir : Irrx}

theorem satInc_le_tmax (c : Config) (t : Nat) : satInc c t ≤ c.tmax := by
  rw [satInc_eq]
  exact Nat.min_le_right _ _

/-- A tick count fits an entry of the buffer, because `TMAX` is 2^`TW` - 1. -/
theorem satInc_lt_two_pow (hw : c.wf) (t : Nat) : satInc c t < 2 ^ c.tw := by
  obtain ⟨-, htmax, -⟩ := hw
  have hle := satInc_le_tmax c t
  have hpos := Nat.two_pow_pos c.tw
  omega

theorem irShape_afterReset (c : Config) (n : Nat) : irShape c (Irrx.afterReset c n) := by
  have hfit : ∀ d ∈ freshRawbuf c n, d < 2 ^ c.tw := by
    intro d hd
    obtain ⟨k, -, rfl⟩ := List.mem_map.mp hd
    exact trunc_lt _ _
  exact ⟨freshRawbuf_length c n, hfit, Nat.zero_le _, by simp⟩

theorem irShape_setTimer {n : Nat} (h : irShape c ir) (hn : n ≤ c.tmax) : irShape c { ir with timer := n } := by
  obtain ⟨hbuf, hfit, -, hlen⟩ := h
  exact ⟨hbuf, hfit, hn, hlen⟩

/-- A record below `CAP` leaves MARK with an odd length, SPACE with an even one, or a full buffer in STOP. -/
theorem irShape_record {d : Nat} {x : IrState} (hcap : c.cap ≤ 128) (hbuf : ir.rawbuf.length = c.cap)
    (hfit : ∀ e ∈ ir.rawbuf, e < 2 ^ c.tw) (hd : d < 2 ^ c.tw) (hlen : ir.rawlen.toNat < c.cap)
    (hx : x = .mark ∧ ir.rawlen.toNat % 2 = 0 ∨ x = .space ∧ ir.rawlen.toNat % 2 = 1) :
    irShape c (record c d x ir) := by
  have hset : ∀ e ∈ (record c d x ir).rawbuf, e < 2 ^ c.tw := by
    intro e he
    obtain he | rfl := List.mem_or_eq_of_mem_set he
    · exact hfit e he
    · exact hd
  have hnext : (record c d x ir).rawlen.toNat = ir.rawlen.toNat + 1 := record_rawlen_toNat c d x ir (by omega)
  refine ⟨by simpa using hbuf, hset, Nat.zero_le _, ?_⟩
  rw [hnext, record_state]
  by_cases hfull : ir.rawlen.toNat + 1 = c.cap
  · simp [hfull]
  · obtain ⟨rfl, hpar⟩ | ⟨rfl, hpar⟩ := hx <;> simp [hfull] <;> omega

theorem IrTickEffect.irShape {b : Bool} {ir' : Irrx} (he : IrTickEffect c ir b ir') (hw : c.wf)
    (h : Safety.irShape c ir) : Safety.irShape c ir' := by
  have hd := satInc_lt_two_pow hw ir.timer
  have ht := satInc_le_tmax c ir.timer
  obtain ⟨⟨-, hcap4, hcap, -⟩, -⟩ := hw
  have ⟨hbuf, hfit, _, hlen, _, hmark, hspace, _⟩ := h
  cases he with
  | timerOnly _ n hn => exact irShape_setTimer h (by omega)
  | capture hs hg => exact irShape_record hcap hbuf hfit hd (by simp; omega) (.inl ⟨rfl, rfl⟩)
  | endMark hs =>
    obtain ⟨hodd, hlt⟩ := hmark hs
    exact irShape_record hcap hbuf hfit hd hlt (.inr ⟨rfl, hodd⟩)
  | endSpace hs =>
    obtain ⟨heven, -, hlt⟩ := hspace hs
    exact irShape_record hcap hbuf hfit hd hlt (.inl ⟨rfl, heven⟩)
  | endFrame hs hg =>
    obtain ⟨heven, hge, -⟩ := hspace hs
    exact ⟨hbuf, hfit, ht, hlen, by simp, by simp, by simp, fun _ => .inr ⟨heven, hge⟩⟩

theorem irShape_resume (h : irShape c ir) : irShape c (resume ir) := by
  by_cases hs : ir.state = .stop
  · obtain ⟨hbuf, hfit, htimer, -⟩ := h
    rw [resume_of_stop hs]
    exact ⟨hbuf, hfit, htimer, by simp⟩
  · rw [resume_of_not_stop hs]
    exact h

end IrShape

/-! ### PHPWM keeps its shape (`10_state.md` R18, R20, R21, R32 to R34) -/

section PwmShape

variable {c : Config} {p : Phpwm}

theorem allLow_pinsAllLow (c : Config) : allLow (Pins.allLow c) := fun _ hb => List.eq_of_mem_replicate hb

theorem onlyPhase_pinsAllLow (c : Config) (q : Phase) : onlyPhase c q (Pins.allLow c) := by
  intro j _ hj
  simp at hj

theorem nextPins_eq_allLow (h : p.halt = true) : nextPins c p = Pins.allLow c := by simp [nextPins, h]

/-- After a tick the asserted pins are of the phase then current (R33): under halt there is none, a flip asserts pins of
the phase entered only, any other tick sets none. -/
theorem onlyPhase_nextPins (h : onlyPhase c p.phase p.pin) : onlyPhase c (nextPhase c p) (nextPins c p) := by
  intro j hj hpin
  cases hh : p.halt with
  | true => simp [nextPins_of_halt hh] at hpin
  | false =>
    by_cases hf : p.cnt + 1 = c.phaseTicks
    · rw [nextPins_of_flip hh hf] at hpin
      obtain ⟨-, hph, -⟩ := hpin
      rw [nextPhase_of_flip hf, hph]
    · rw [nextPins_of_not_flip hh hf] at hpin
      obtain ⟨-, hold, -⟩ := hpin
      rw [nextPhase_of_not_flip hf, h j hj hold]

theorem pwmShape_pwmTick (hw : c.wf) (h : pwmShape c p) : pwmShape c (pwmTick c p) := by
  obtain ⟨-, -, -, hcntW, -⟩ := hw
  obtain ⟨hcnt, -, hlevels, hfit, -, honly, -⟩ := h
  refine ⟨nextCnt_lt hcntW hcnt, nextTicks_lt c p, hlevels, hfit, nextPins_length c p, onlyPhase_nextPins honly, ?_⟩
  intro (hh : p.halt = true)
  change allLow (nextPins c p)
  rw [nextPins_eq_allLow hh]
  exact allLow_pinsAllLow c

theorem pwmShape_writeHalt (b : Bool) (h : pwmShape c p) : pwmShape c (writeHalt c b p) := by
  obtain ⟨hcnt, hticks, hlevels, hfit, hpins, honly, -⟩ := h
  cases b with
  | true =>
    exact ⟨hcnt, hticks, hlevels, hfit, allLow_length c, onlyPhase_pinsAllLow c p.phase, fun _ => allLow_pinsAllLow c⟩
  | false => exact ⟨hcnt, hticks, hlevels, hfit, hpins, honly, by simp⟩

theorem pwmShape_writeLevel {v : Nat} (n : Fin 4) (hv : v < 2 ^ c.levelW) (h : pwmShape c p) :
    pwmShape c (writeLevel c n v p) := by
  obtain ⟨hcnt, hticks, hlevels, hfit, hpins⟩ := h
  exact ⟨hcnt, hticks, (writeLevel_length c n v p).trans hlevels, writeLevel_fits hv hfit, hpins⟩

theorem pwmShape_afterReset (hw : c.wf) : pwmShape c (Phpwm.afterReset c) := by
  obtain ⟨-, -, hpos, -⟩ := hw
  have hlevels : ∀ l ∈ List.replicate c.nCh 0, l < 2 ^ c.levelW := by
    intro l hl
    rw [List.eq_of_mem_replicate hl]
    exact Nat.two_pow_pos _
  exact ⟨hpos, Nat.two_pow_pos _, List.length_replicate, hlevels, allLow_length c, onlyPhase_pinsAllLow c .A, by simp⟩

end PwmShape

/-! ### The invariant of the machine -/

theorem Effect.machineInv {s t : State} {i : Instr} (h : Effect s i t) (hs : MachineInv s) : MachineInv t := by
  obtain ⟨hw, hir, hpwm⟩ := hs
  cases h with
  | pwmtick => exact ⟨hw, hir, pwmShape_pwmTick hw hpwm⟩
  | irtick b => exact ⟨hw, (irTick_effect s.cfg b s.ir).irShape hw hir, hpwm⟩
  | reset => exact ⟨hw, irShape_afterReset s.cfg s.draws, pwmShape_afterReset hw⟩
  | wrPwmCtrl d => exact ⟨hw, hir, pwmShape_writeHalt (haltOf d) hpwm⟩
  | wrPwmLevel n d => exact ⟨hw, hir, pwmShape_writeLevel n (levelOf_lt s.cfg d) hpwm⟩
  | wrIrCtrl d =>
    refine ⟨hw, ?_, hpwm⟩
    rw [withIr_cfg, withIr_ir]
    split
    · exact irShape_resume hir
    · exact hir
  | portsOnly => exact ⟨hw, hir, hpwm⟩

/-- Settles O51: the idle step changes the ports alone, and every operation keeps the invariant. -/
theorem invariantIsKept : Obligations.InvariantIsKept := by
  intro s t hs h
  obtain rfl | ⟨i, rest, he⟩ := step_cases h
  · exact hs
  · exact he.machineInv hs

/-! ### The edges of the capture state (`10_state.md` R31) -/

@[simp] theorem irEdge_refl (x : IrState) : irEdge x x = true := by cases x <;> rfl

section Edges

variable {c : Config} {ir : Irrx}

theorem IrTickEffect.irEdge {b : Bool} {ir' : Irrx} (he : IrTickEffect c ir b ir') (hcap : 1 < c.cap) :
    Safety.irEdge ir.state ir'.state = true := by
  cases he with
  | timerOnly => exact irEdge_refl _
  | capture hs =>
    rw [hs, record_state, if_neg (by simp; omega)]
    rfl
  | endMark hs | endSpace hs =>
    rw [hs, record_state]
    split <;> rfl
  | endFrame hs => rw [hs]; rfl

/-- A tick takes MARK to STOP by the record that fills the buffer. -/
theorem irTick_rawlen_of_mark_to_stop {b : Bool} (hcap : c.cap ≤ 128) (hs : ir.state = .mark)
    (ht : (irTick c b ir).state = .stop) : (irTick c b ir).rawlen.toNat = c.cap := by
  cases b with
  | false => simp [irTick_mark_mark hs, hs] at ht
  | true =>
    rw [irTick_mark_space hs] at ht ⊢
    have hfull : ir.rawlen.toNat + 1 = c.cap := by simpa using ht
    rw [record_rawlen_toNat c _ _ _ (by omega), hfull]

/-- No sample leaves STOP. -/
theorem irTick_state_of_stop (b : Bool) (hs : ir.state = .stop) : (irTick c b ir).state = .stop := by
  cases b with
  | false => rw [irTick_stop_mark hs]; exact hs
  | true => rw [irTick_stop_space hs]; exact hs

theorem irEdge_resume (ir : Irrx) : irEdge ir.state (resume ir).state = true := by
  by_cases hs : ir.state = .stop
  · rw [resume_of_stop hs, hs]; rfl
  · rw [resume_of_not_stop hs]; exact irEdge_refl _

theorem resume_state_ne_stop_of_mark (hs : ir.state = .mark) : (resume ir).state ≠ .stop := by
  simp [resume, hs]

/-- A capture state that is kept is on no edge, so neither cause is asked for. -/
theorem captureEdges_of_unchanged (x : IrState) {overflow resumed : Prop} :
    irEdge x x = true ∧ (x = .mark → x = .stop → overflow) ∧ (x = .stop → x = .idle → resumed) := by
  cases x <;> simp

end Edges

/-- Settles O36: only a sample or the command register writes the capture state. -/
theorem captureStateEdges : Obligations.CaptureStateEdges := by
  intro i s t hs hr h
  obtain ⟨⟨⟨-, hcap4, hcap, -⟩, -⟩, -⟩ := hs
  cases effect_of_exec h with
  | reset => exact absurd rfl hr
  | irtick b =>
    refine ⟨(irTick_effect s.cfg b s.ir).irEdge (by omega), irTick_rawlen_of_mark_to_stop hcap, fun hstop hidle => ?_⟩
    rw [withIr_ir, irTick_state_of_stop b hstop] at hidle
    cases hidle
  | wrIrCtrl d =>
    rw [withIr_ir]
    split
    case isTrue hd =>
      exact ⟨irEdge_resume s.ir, fun hm ht => absurd ht (resume_state_ne_stop_of_mark hm), fun _ _ => ⟨d, rfl, hd⟩⟩
    case isFalse => exact captureEdges_of_unchanged s.ir.state
  | pwmtick | wrPwmCtrl | wrPwmLevel | portsOnly => exact captureEdges_of_unchanged s.ir.state

/-! ### The phase and the counters (`10_state.md` R32, R35) -/

theorem nextPhase_eq_other_iff {c : Config} {p : Phpwm} :
    nextPhase c p = p.phase.other ↔ p.cnt + 1 = c.phaseTicks := by
  by_cases hf : p.cnt + 1 = c.phaseTicks
  · simp [nextPhase_of_flip hf, hf]
  · simp [nextPhase_of_not_flip hf, hf, (other_ne p.phase).symm]

/-- Settles O47: the PWM tick alone writes the phase. -/
theorem phaseTogglesOnlyAtFlip : Obligations.PhaseTogglesOnlyAtFlip := by
  intro i s hr
  obtain ⟨t, ht, he⟩ := exec_effect i s
  refine ⟨t, ht, fun hs => ?_, ?_⟩
  · obtain ⟨-, -, hcnt, -⟩ := he.machineInv hs
    rwa [he.cfg_eq] at hcnt
  · by_cases hp : i = .pwmtick
    · subst hp
      cases he with
      | pwmtick => simpa [pwmTick] using nextPhase_eq_other_iff
      | portsOnly _ _ hi => cases hi
    · obtain ⟨-, -, hphase⟩ := he.counters_eq hp hr
      simp [hphase, hp, (other_ne s.pwm.phase).symm]

theorem phaseCode_other (q : Phase) : (phaseCode q.other).toNat = ((phaseCode q).toNat + 1) % 2 := by
  cases q <;> rfl

/-- The count and the phase are those of the tick counter, also over its wrap: `PHASE_TICKS` and twice `PHASE_TICKS`
divide its period, so the wrap changes neither remainder. -/
theorem countersInStep_pwmTick {c : Config} {p : Phpwm} (hw : c.wf) (hdvd : 2 * c.phaseTicks ∣ 2 ^ c.tkw)
    (h : CountersInStep c p) : CountersInStep c (pwmTick c p) := by
  obtain ⟨-, -, hpos, hcntW, -⟩ := hw
  obtain ⟨hcnt, hphase⟩ := h
  have hlt : p.cnt < c.phaseTicks := hcnt ▸ Nat.mod_lt _ hpos
  have hticks : p.ticks + 1 = p.cnt + 1 + c.phaseTicks * (p.ticks / c.phaseTicks) := by
    have := Nat.mod_add_div p.ticks c.phaseTicks
    omega
  have hmod : nextTicks c p % c.phaseTicks = (p.cnt + 1) % c.phaseTicks := by
    rw [nextTicks, trunc, Nat.mod_mod_of_dvd _ ((Nat.dvd_mul_left _ 2).trans hdvd), hticks, Nat.add_mul_mod_self_left]
  have hdiv : nextTicks c p / c.phaseTicks % 2 = ((p.cnt + 1) / c.phaseTicks + p.ticks / c.phaseTicks) % 2 := by
    rw [← Nat.mod_mul_right_div_self, Nat.mul_comm c.phaseTicks 2, nextTicks, trunc, Nat.mod_mod_of_dvd _ hdvd,
      Nat.mul_comm 2, Nat.mod_mul_right_div_self, hticks, Nat.add_mul_div_left _ _ hpos]
  change nextCnt c p = nextTicks c p % c.phaseTicks ∧
    (phaseCode (nextPhase c p)).toNat = nextTicks c p / c.phaseTicks % 2
  rw [hmod, hdiv]
  by_cases hf : p.cnt + 1 = c.phaseTicks
  · rw [nextCnt_of_flip hf, nextPhase_of_flip hf, phaseCode_other, hphase, hf, Nat.mod_self, Nat.div_self hpos]
    omega
  · have hlt' : p.cnt + 1 < c.phaseTicks := by omega
    rw [nextCnt_of_not_flip hcntW hlt hf, nextPhase_of_not_flip hf, hphase, Nat.mod_eq_of_lt hlt',
      Nat.div_eq_of_lt hlt', Nat.zero_add]
    exact ⟨rfl, rfl⟩

theorem countersInStep_afterReset (c : Config) : CountersInStep c (Phpwm.afterReset c) := by
  simp [CountersInStep, phaseCode]

theorem Effect.countersInStep {s t : State} {i : Instr} (h : Effect s i t) (hw : s.cfg.wf)
    (hdvd : 2 * s.cfg.phaseTicks ∣ 2 ^ s.cfg.tkw) (hs : CountersInStep s.cfg s.pwm) :
    CountersInStep s.cfg t.pwm := by
  cases h with
  | pwmtick => exact countersInStep_pwmTick hw hdvd hs
  | reset => exact countersInStep_afterReset s.cfg
  | irtick | wrPwmCtrl | wrPwmLevel | wrIrCtrl | portsOnly => exact hs

/-- Settles O50: of the operations only the PWM tick moves the counters, and it moves them together. -/
theorem countersStayInStep : Obligations.CountersStayInStep := by
  refine ⟨countersInStep_afterReset _, by decide, by decide, fun s t hw hdvd hs h => ?_⟩
  obtain rfl | ⟨i, rest, he⟩ := step_cases h
  · exact ⟨rfl, hs⟩
  · have hcfg : t.cfg = s.cfg := he.cfg_eq
    exact ⟨hcfg, hcfg ▸ he.countersInStep hw hdvd hs⟩

/-! ### The reset state (`10_state.md` R28) -/

/-- Settles O25, element by element. -/
theorem resetState : Obligations.ResetState :=
  ⟨rfl, rfl, rfl, rfl, rfl, rfl, rfl, rfl, allLow_pinsAllLow _⟩

end Sys2Proof.Proofs

/-! The host port and one `clk` cycle: what the words of a cycle decode to, what a host access does at every index, and
how the words of a cycle are performed one after another (`20_memory.md` R43 to R46). -/

namespace Sys2Proof.Proofs

open Sys2Proof.Machine Sys2Proof.Safety

/-! ### What the words of a cycle decode to -/

@[simp] theorem decode_rdWord (a : Index) : decode (rdWord a) = .ok (decodeRd a) := by simp [decode, rdWord]

@[simp] theorem decode_wrWord (a : Index) (d : Data) : decode (wrWord a d) = .ok (decodeWr a d) := by
  simp [decode, wrWord]

@[simp] theorem decode_pwmtickWord : decode (evtWord false false) = .ok .pwmtick := rfl

@[simp] theorem decode_irtickWord (b : Bool) : decode (evtWord b true) = .ok (.irtick b) := by cases b <;> rfl

/-! ### What a host access does (`20_memory.md` R36, R37) -/

@[simp] theorem inRange_iff {lo hi : Nat} {a : Index} : inRange lo hi a = true ↔ lo ≤ a.toNat ∧ a.toNat ≤ hi :=
  decide_eq_true_iff

theorem regRead_of_unmapped {a : Index} (h : Unmapped a) (s : State) : regRead a s = readUnmapped := by
  unfold regRead
  iterate 11 rw [if_neg (by bv_omega)]

theorem regRead_of_level {a : Index} (h : 0x08 ≤ a.toNat ∧ a.toNat ≤ 0x0B) (s : State) :
    regRead a s = readLevel s.cfg (channelOf a) s.pwm := by
  unfold regRead
  iterate 5 rw [if_neg (by bv_omega)]
  rw [if_pos h]

theorem regRead_of_entry {a : Index} (h : 0x80 ≤ a.toNat) (s : State) :
    regRead a s = readRawbuf s.cfg (entryOf a) s.ir := by
  unfold regRead
  iterate 10 rw [if_neg (by bv_omega)]
  rw [if_pos h]

theorem regWrite_of_level {a : Index} (h : 0x08 ≤ a.toNat ∧ a.toNat ≤ 0x0B) (d : Data) (s : State) :
    regWrite a d s = s.withPwm (writeLevel s.cfg (channelOf a) (levelOf s.cfg d) s.pwm) := by
  rw [regWrite, if_neg (by bv_omega), if_pos h]

theorem regWrite_of_ignored {a : Index} (h : ReadOnly a ∨ Unmapped a) (d : Data) (s : State) :
    regWrite a d s = s.withOut (quiet s.pwm) := by
  unfold ReadOnly Unmapped at h
  rw [regWrite, if_neg (by bv_omega), if_neg (by bv_omega), if_neg (by bv_omega)]

/-- `RD a` returns `RegRead(a)`, at every index. -/
theorem exec_decodeRd (a : Index) (s : State) : exec (decodeRd a) s = respond s (regRead a s) := by
  fun_cases decodeRd a
  case case1 h | case2 h | case3 h | case4 h | case5 h | case6 h | case10 h | case11 h | case12 h | case13 h =>
    subst h
    rfl
  case case7 h | case9 h | case14 h | case15 h | case16 h | case17 h =>
    rw [inRange_iff] at h
    rw [regRead_of_unmapped (by omega)]
    rfl
  case case8 h =>
    rw [regRead_of_level (inRange_iff.mp h)]
    rfl
  case case18 =>
    simp only [inRange_iff] at *
    rw [regRead_of_entry (by bv_omega)]
    rfl

/-- `WR a, d` performs `RegWrite(a, d)`, at every index. -/
theorem exec_decodeWr (a : Index) (d : Data) (s : State) : exec (decodeWr a d) s = .next (regWrite a d s) := by
  fun_cases decodeWr a d
  case case1 h | case2 h | case3 h | case4 h | case5 h | case6 h | case10 h | case11 h | case12 h | case13 h =>
    subst h
    rfl
  case case7 h | case9 h | case14 h | case15 h | case16 h | case17 h =>
    rw [inRange_iff] at h
    rw [regWrite_of_ignored (.inr (by omega))]
    rfl
  case case8 h =>
    rw [regWrite_of_level (inRange_iff.mp h)]
    rfl
  case case18 =>
    simp only [inRange_iff] at *
    rw [regWrite_of_ignored (.inl (by bv_omega))]
    rfl

/-- No access of the host sees the output ports, as they are no state of the block (log entry 5). -/
theorem regRead_withOut (a : Index) (s : State) (o : PortOut) : regRead a (s.withOut o) = regRead a s := rfl

theorem regWrite_withOut (a : Index) (d : Data) (s : State) (o : PortOut) :
    regWrite a d (s.withOut o) = regWrite a d s := rfl

/-- A write returns nothing. -/
@[simp] theorem regWrite_hRdata (a : Index) (d : Data) (s : State) : (regWrite a d s).out.hRdata = none := by
  unfold regWrite
  split
  · rfl
  · split
    · rfl
    · split <;> rfl

/-! ### The words of a cycle, one after another -/

/-- No operation reads the output ports. -/
theorem exec_withOut (i : Instr) (s : State) (o : PortOut) : exec i (s.withOut o) = exec i s := by cases i <;> rfl

theorem stepWith_of_ok {w : OpWord} {i : Instr} (hd : decode w = .ok i) (s : State) (rest : List OpWord) :
    stepWith s (some (w, rest)) = exec i (s.withOps rest) := by rw [stepWith, hd]

theorem stepWith_of_error {w : OpWord} {e : DecodeError} (hd : decode w = .error e) (s : State) (rest : List OpWord) :
    stepWith s (some (w, rest)) = .refused (.noOperation e) := by rw [stepWith, hd]

theorem withOps_withOut (s : State) (o : PortOut) (rest : List OpWord) :
    (s.withOut o).withOps rest = (s.withOps rest).withOut o := rfl

theorem stepWith_withOut (s : State) (o : PortOut) (w : OpWord) (rest : List OpWord) :
    stepWith (s.withOut o) (some (w, rest)) = stepWith s (some (w, rest)) := by
  cases hd : decode w with
  | ok i => rw [stepWith_of_ok hd, stepWith_of_ok hd, withOps_withOut, exec_withOut]
  | error e => rw [stepWith_of_error hd, stepWith_of_error hd]

section Words

variable {s t u : State} {acc : PortOut}

/-- A word's operation, then the words after it. -/
theorem performWords_cons {w : OpWord} {ws : List OpWord} {i : Instr} (hd : decode w = .ok i)
    (he : exec i s = .next t) : performWords (w :: ws) s acc = performWords ws t (joinOut acc t.out) := by
  have hstep : stepWith s (some (w, s.ops)) = .next t := (stepWith_of_ok hd s s.ops).trans he
  rw [performWords, hstep]

theorem performWords_withOut (ws : List OpWord) (s : State) (o acc : PortOut) :
    performWords ws (s.withOut o) acc = performWords ws s acc := by
  cases ws with
  | nil => rfl
  | cons w ws => rw [performWords, performWords, withOut_ops, stepWith_withOut]

/-- Words that follow others are performed in the state those leave, which also holds what the ports have shown. -/
theorem performWords_append {ws : List OpWord} (vs : List OpWord) (h : performWords ws s acc = .next u) :
    performWords (ws ++ vs) s acc = performWords vs u u.out := by
  induction ws generalizing s acc with
  | nil =>
    obtain rfl : s.withOut acc = u := Host.Outcome.next.inj h
    exact (performWords_withOut vs s acc acc).symm
  | cons w ws ih =>
    rw [List.cons_append, performWords]
    rw [performWords] at h
    cases hstep : stepWith s (some (w, s.ops)) with
    | next t =>
      rw [hstep] at h
      exact ih h
    | fault f => cases f
    | refused r =>
      rw [hstep] at h
      cases h

end Words

/-! ### The ticks of a cycle, then its host access (`20_memory.md` R45, R46) -/

/-- The words of the ticks of a cycle without `rst`. -/
def tickWords (p : PortIn) : List OpWord :=
  (if p.pwmTick then [evtWord false false] else []) ++ (if p.irTick then [evtWord p.irIn true] else [])

/-- The word of the host access that the port `h_we` asks for. -/
def accessWord (p : PortIn) : OpWord := if p.hWe then wrWord p.hAddr p.hWdata else rdWord p.hAddr

/-- What the ports have shown before the first operation of a cycle. -/
def nothingShown : PortOut := ⟨none, false, []⟩

section Cycle

variable {p : PortIn} {s u : State}

theorem cycleWords_of_no_access (hr : p.rst = false) (hs : p.hSel = false) : cycleWords p = tickWords p := by
  simp [cycleWords, tickWords, hr, hs]

theorem cycleWords_of_access (hr : p.rst = false) (hs : p.hSel = true) :
    cycleWords p = tickWords p ++ [accessWord p] := by
  simp [cycleWords, tickWords, accessWord, hr, hs]

theorem cycle_of_ne_nil (h : cycleWords p ≠ []) (s : State) :
    cycle p s = performWords (cycleWords p) s nothingShown := by
  obtain ⟨w, ws, hw⟩ := List.exists_cons_of_ne_nil h
  rw [cycle, hw]
  rfl

theorem cycle_of_nil (h : cycleWords p = []) (s : State) : cycle p s = .next (s.withOut (quiet s.pwm)) := by
  rw [cycle, h]

/-- A cycle leaves what its words leave, but for the ports of a cycle that performs none. -/
theorem cycle_of_performWords (h : performWords (cycleWords p) s nothingShown = .next u) :
    ∃ o, cycle p s = .next (u.withOut o) := by
  by_cases hw : cycleWords p = []
  · rw [hw] at h
    obtain rfl : s.withOut nothingShown = u := Host.Outcome.next.inj h
    exact ⟨quiet s.pwm, cycle_of_nil hw s⟩
  · exact ⟨u.out, (cycle_of_ne_nil hw s).trans h⟩

/-- The ticks of a cycle are performed, whichever they are, and return nothing. -/
theorem performWords_tickWords (p : PortIn) (s : State) :
    ∃ u, performWords (tickWords p) s nothingShown = .next u ∧ u.out.hRdata = none := by
  unfold tickWords
  cases p.pwmTick <;> cases p.irTick
  case false.false => exact ⟨_, rfl, rfl⟩
  case false.true => exact ⟨_, performWords_cons (decode_irtickWord _) rfl, rfl⟩
  case true.false => exact ⟨_, performWords_cons decode_pwmtickWord rfl, rfl⟩
  case true.true =>
    exact ⟨_, (performWords_cons decode_pwmtickWord rfl).trans (performWords_cons (decode_irtickWord _) rfl), rfl⟩

/-- A cycle with a host access performs it in the state `u` that the ticks leave, and that the cycle without the access
leaves too, but for the ports. -/
theorem cycle_access (hr : p.rst = false) (hs : p.hSel = true) (s : State) :
    ∃ u o, u.out.hRdata = none ∧ cycle { p with hSel := false } s = .next (u.withOut o) ∧
      ∀ {i t}, decode (accessWord p) = .ok i → exec i u = .next t →
        cycle p s = .next (t.withOut (joinOut u.out t.out)) := by
  obtain ⟨u, hticks, hnone⟩ := performWords_tickWords p s
  have hwords : cycleWords { p with hSel := false } = tickWords p := cycleWords_of_no_access hr rfl
  obtain ⟨o, hwithout⟩ := cycle_of_performWords (hwords ▸ hticks)
  refine ⟨u, o, hnone, hwithout, fun {i t} hd he => ?_⟩
  have hne : cycleWords p ≠ [] := by simp [cycleWords_of_access hr hs]
  calc cycle p s = performWords (tickWords p ++ [accessWord p]) s nothingShown := by
        rw [cycle_of_ne_nil hne, cycleWords_of_access hr hs]
    _ = performWords [accessWord p] u u.out := performWords_append _ hticks
    _ = .next (t.withOut (joinOut u.out t.out)) := performWords_cons hd he

end Cycle

/-- Settles O57: the access acts on the state the ticks leave, which the cycle without it shows. -/
theorem hostAccessComesAfterTicks : Obligations.HostAccessComesAfterTicks := by
  constructor
  · intro p s hr hs hwe
    obtain ⟨u, o, -, hwithout, hwith⟩ := cycle_access hr hs s
    have hd : decode (accessWord p) = .ok (decodeRd p.hAddr) := by simp [accessWord, hwe]
    refine ⟨_, _, hwithout, hwith hd (exec_decodeRd p.hAddr u), ?_, rfl, rfl, rfl, rfl, rfl⟩
    rw [regRead_withOut]
    rfl
  · intro p s hr hs hwe
    obtain ⟨u, o, hnone, hwithout, hwith⟩ := cycle_access hr hs s
    have hd : decode (accessWord p) = .ok (decodeWr p.hAddr p.hWdata) := by simp [accessWord, hwe]
    refine ⟨_, _, hwithout, hwith hd (exec_decodeWr p.hAddr p.hWdata u), ?_, ?_⟩
    · simp [joinOut, hnone]
    · rw [regWrite_withOut]
      exact ⟨rfl, rfl, rfl, rfl, rfl⟩

/-- Settles O54: the IR tick reads and writes IRRX alone, the PWM tick PHPWM alone, so the same two new values stand after
both orders; only the ports tell them apart. -/
theorem ticksCommute : Obligations.TicksCommute := by
  intro s b
  refine ⟨((s.withIr (irTick s.cfg b s.ir)).withPwm (pwmTick s.cfg s.pwm)).withOut (pwmTickOut s.cfg s.pwm),
    (s.withPwm (pwmTick s.cfg s.pwm)).withIr (irTick s.cfg b s.ir), rfl, rfl, ?_⟩
  exact ⟨rfl, rfl, rfl, rfl, rfl⟩

end Sys2Proof.Proofs

/-! The words of the four formats as numbers (`30_encoding.md` R53 to R56), and the words that spell no operation
(R59). -/

namespace Sys2Proof.Proofs

open Sys2Proof.Machine

/-! ### Words as numbers -/

/-- The fields stand side by side: `KIND` from bit 40, `A` from bit 32, `D` from bit 0 (R52). -/
theorem toNat_mkWord (k : BitVec 2) (a : Index) (d : Data) :
    (mkWord k a d).toNat = k.toNat * 2 ^ 40 + a.toNat * 2 ^ 32 + d.toNat := by
  change (k ++ a ++ d : BitVec (2 + 8 + 32)).toNat = _
  rw [BitVec.toNat_append, BitVec.toNat_append, ← Nat.shiftLeft_add_eq_or_of_lt d.isLt,
    ← Nat.shiftLeft_add_eq_or_of_lt a.isLt, Nat.shiftLeft_eq, Nat.shiftLeft_eq]
  omega

/-- Settles O3: the `EVT` and `RST` words have no free field; the others are read off their fields. -/
theorem wordFormats : Obligations.WordFormats := by
  refine ⟨⟨by decide, by decide, by decide, by decide⟩, fun a => ?_, fun a d => ?_⟩
  · simp [rdWord, toNat_mkWord]
  · simp [wrWord, toNat_mkWord]

/-! ### What the decoder refuses (R59), format by format -/

/-- R59 (a), on the fields of an `EVT` word. -/
theorem decodeEvt_error_iff (a : Index) (d : Data) :
    (∃ e, decodeEvt a d = .error e) ↔
      a.extractLsb' 2 6 ≠ 0 ∨ (a.getLsbD 0 = false ∧ a.getLsbD 1 = true) ∨ d ≠ 0 := by
  fun_cases decodeEvt a d
  case case1 hindex => exact iff_of_true ⟨_, rfl⟩ (.inl hindex)
  case case2 hdata => exact iff_of_true ⟨_, rfl⟩ (.inr (.inr hdata))
  case case4 hunit hsample => exact iff_of_true ⟨_, rfl⟩ (.inr (.inl ⟨by simpa using hunit, hsample⟩))
  case case3 | case5 => simp_all

/-- R59 (c), on the fields of an `RST` word. -/
theorem decodeRst_error_iff (a : Index) (d : Data) : (∃ e, decodeRst a d = .error e) ↔ a ≠ 0 ∨ d ≠ 0 := by
  fun_cases decodeRst a d <;> simp_all

theorem kind_cases (k : BitVec 2) : k = 0 ∨ k = 1 ∨ k = 2 ∨ k = 3 := by
  revert k
  decide

/-- R59 on the three fields of a word: a `WR` word is never refused. -/
theorem decode_error_iff (w : OpWord) :
    (∃ e, decode w = .error e) ↔
      (w.kind = 2 ∧
        (w.index.extractLsb' 2 6 ≠ 0 ∨ (w.index.getLsbD 0 = false ∧ w.index.getLsbD 1 = true) ∨ w.data ≠ 0)) ∨
      (w.kind = 0 ∧ w.data ≠ 0) ∨ (w.kind = 3 ∧ (w.index ≠ 0 ∨ w.data ≠ 0)) := by
  obtain hk | hk | hk | hk := kind_cases w.kind
  · by_cases hd : w.data = 0
    · simp [decode, hk, hd]
    · rw [decode, if_pos hk, if_neg hd]
      simpa [hk] using hd
  · simp [decode, hk]
  · simp [decode, hk, decodeEvt_error_iff]
  · simp [decode, hk, decodeRst_error_iff]

/-! ### The bits of the field `A` in its word (R52) -/

theorem index_getLsbD (w : OpWord) {n : Nat} (hn : n < 8) : w.index.getLsbD n = w.getLsbD (32 + n) := by
  simp [OpWord.index, hn]

theorem index_extractLsb'_upper (w : OpWord) : w.index.extractLsb' 2 6 = w.extractLsb' 34 6 := by
  apply BitVec.eq_of_getLsbD_eq
  intro i hi
  simp only [BitVec.getLsbD_extractLsb']
  rw [index_getLsbD w (by omega), show 32 + (2 + i) = 34 + i by omega]

/-! ### A trace that goes on with such a word -/

theorem fetch_of_ops {s : State} {w : OpWord} {rest : List OpWord} (h : s.ops = w :: rest) :
    fetch s = some (w, rest) := by rw [fetch, h]

/-- The step refuses the word for the decoder's reason. -/
theorem step_of_decode_error {s : State} {w : OpWord} {rest : List OpWord} {e : DecodeError} (h : s.ops = w :: rest)
    (hd : decode w = .error e) : step s = .refused (.noOperation e) := by
  rw [step, fetch_of_ops h, stepWith_of_error hd]

/-- Settles O5: R59 on the fields, with the fields' bits read in the word. -/
theorem invalidWordsAreRefused : Obligations.InvalidWordsAreRefused := by
  refine ⟨fun w => ?_, fun s w rest h ⟨e, hd⟩ => ⟨e, step_of_decode_error h hd⟩⟩
  rw [decode_error_iff, index_getLsbD w (by omega), index_getLsbD w (by omega), index_extractLsb'_upper]
  rfl

end Sys2Proof.Proofs

/-! What one IR sample does in each capture state (`40_ir_capture.md` R66 to R71), and what no sequence of samples does to
a frozen frame. -/

namespace Sys2Proof.Proofs

open Sys2Proof.Machine Sys2Proof.Safety

/-! ### The shared parts: the tick, its count, a record -/

theorem exec_irtick (b : Bool) (s : State) : exec (.irtick b) s = .next (s.withIr (irTick s.cfg b s.ir)) := rfl

theorem onlyIr_withIr (s : State) (x : Irrx) : OnlyIr s (s.withIr x) := ⟨rfl, rfl, rfl, rfl⟩

/-- `t1` of R66 is what the machine's saturating increment gives. -/
theorem tickCount_eq_satInc (s : State) : tickCount s = satInc s.cfg s.ir.timer := (satInc_eq _ _).symm

section Record

variable {c : Config} {ir : Irrx}

theorem irEntry_record_rawlen (d : Nat) (x : IrState) (h : ir.rawlen.toNat < ir.rawbuf.length) :
    irEntry (record c d x ir) ir.rawlen.toNat = d := by
  rw [irEntry_record, if_pos ⟨rfl, h⟩]

theorem onlyEntry_record (c : Config) (d : Nat) (x : IrState) (ir : Irrx) :
    OnlyEntry ir.rawlen.toNat ir (record c d x ir) := by
  refine ⟨record_rawbuf_length c d x ir, fun k hk => ?_⟩
  rw [irEntry_record, if_neg fun ⟨hself, _⟩ => hk hself]

/-- A record into a buffer that is not full: the five things R67 says of it. -/
theorem record_appends (d : Nat) (x : IrState) (hcap : c.cap ≤ 128) (hbuf : ir.rawbuf.length = c.cap)
    (hlen : ir.rawlen.toNat < c.cap) :
    (record c d x ir).timer = 0 ∧
    (record c d x ir).state = (if ir.rawlen.toNat + 1 = c.cap then .stop else x) ∧
    (record c d x ir).rawlen.toNat = ir.rawlen.toNat + 1 ∧
    irEntry (record c d x ir) ir.rawlen.toNat = d ∧ OnlyEntry ir.rawlen.toNat ir (record c d x ir) :=
  ⟨record_timer c d x ir, record_state c d x ir, record_rawlen_toNat c d x ir (by omega),
    irEntry_record_rawlen d x (by omega), onlyEntry_record c d x ir⟩

/-- The record that starts a capture goes to entry 0, and never fills the buffer, which has at least 4 entries (R5). -/
theorem record_starts_capture (d : Nat) (hcap4 : 4 ≤ c.cap) (hbuf : ir.rawbuf.length = c.cap) :
    (record c d .mark { ir with rawlen := 0 }).timer = 0 ∧
    (record c d .mark { ir with rawlen := 0 }).state = .mark ∧
    (record c d .mark { ir with rawlen := 0 }).rawlen = 1 ∧
    irEntry (record c d .mark { ir with rawlen := 0 }) 0 = d ∧
    OnlyEntry 0 ir (record c d .mark { ir with rawlen := 0 }) := by
  have hroom : 0 < ir.rawbuf.length := by omega
  have hnotFull : ¬ 0 + 1 = c.cap := by omega
  exact ⟨rfl, if_neg hnotFull, rfl, irEntry_record_rawlen (ir := { ir with rawlen := 0 }) d .mark hroom,
    onlyEntry_record c d .mark { ir with rawlen := 0 }⟩

end Record

/-! ### IDLE, MARK and SPACE -/

/-- Settles O26: a space, a mark after too short a gap, and the mark that starts a capture. -/
theorem sampleInIdle : Obligations.SampleInIdle := by
  intro s b hs hidle
  obtain ⟨⟨⟨-, hcap4, -⟩, -⟩, ⟨hbuf, -⟩, -⟩ := hs
  refine ⟨_, exec_irtick b s, onlyIr_withIr s _, ?_⟩
  rw [tickCount_eq_satInc, withIr_ir]
  refine ⟨?space, ?noise, ?start⟩
  case space =>
    rintro rfl
    rw [irTick_idle_space hidle]
    exact ⟨rfl, hidle, rfl, rfl⟩
  case noise =>
    rintro rfl hgap
    rw [irTick_idle_noise hidle hgap]
    exact ⟨rfl, hidle, rfl, rfl⟩
  case start =>
    rintro rfl hgap
    rw [irTick_idle_start hidle hgap]
    exact record_starts_capture _ hcap4 hbuf

/-- Settles O27: the mark goes on, or a space ends and records it. -/
theorem sampleInMark : Obligations.SampleInMark := by
  intro s b hs hmark
  obtain ⟨⟨⟨-, -, hcap, -⟩, -⟩, ⟨hbuf, -, -, -, -, hlen, -⟩, -⟩ := hs
  obtain ⟨-, hroom⟩ := hlen hmark
  refine ⟨_, exec_irtick b s, onlyIr_withIr s _, ?_⟩
  rw [tickCount_eq_satInc, withIr_ir]
  constructor
  · rintro rfl
    rw [irTick_mark_mark hmark]
    exact ⟨rfl, hmark, rfl, rfl⟩
  · rintro rfl
    rw [irTick_mark_space hmark]
    exact record_appends _ .space hcap hbuf hroom

/-- Settles O28: a mark records the space, a space beyond `GAP_TICKS` ends the frame, any other only counts. -/
theorem sampleInSpace : Obligations.SampleInSpace := by
  intro s b hs hspace
  obtain ⟨⟨⟨-, -, hcap, -⟩, -⟩, ⟨hbuf, -, -, -, -, -, hlen, -⟩, -⟩ := hs
  obtain ⟨-, -, hroom⟩ := hlen hspace
  refine ⟨_, exec_irtick b s, onlyIr_withIr s _, ?_⟩
  rw [tickCount_eq_satInc, withIr_ir]
  constructor
  · rintro rfl
    rw [irTick_space_mark hspace]
    exact record_appends _ .mark hcap hbuf hroom
  · rintro rfl
    by_cases hgap : s.cfg.gapTicks < satInc s.cfg s.ir.timer
    · rw [irTick_space_gap hspace hgap, if_pos hgap]
      exact ⟨rfl, rfl, rfl, rfl⟩
    · rw [irTick_space_space hspace (Nat.le_of_not_lt hgap), if_neg hgap]
      exact ⟨rfl, hspace, rfl, rfl⟩

/-! ### STOP -/

theorem runOps_cons {i : Instr} {s t : State} (is : List Instr) (h : exec i s = .next t) :
    runOps (i :: is) s = runOps is t := by rw [runOps, h]

/-- Whatever every sample keeps of IRRX, every sequence of samples keeps; and it writes nothing but IRRX. -/
theorem runOps_irticks_keeps {P : Irrx → Prop} {s : State} (hkeep : ∀ b ir, P ir → P (irTick s.cfg b ir))
    (bs : List Bool) (hP : P s.ir) : ∃ t, runOps (bs.map .irtick) s = .next t ∧ OnlyIr s t ∧ P t.ir := by
  induction bs generalizing s with
  | nil => exact ⟨s, rfl, ⟨rfl, rfl, rfl, rfl⟩, hP⟩
  | cons b bs ih =>
    rw [List.map_cons, runOps_cons _ (exec_irtick b s)]
    exact ih hkeep (hkeep b s.ir hP)

/-- In STOP, with the frame that `ir` holds (`40_ir_capture.md` R71). -/
def FrozenAs (ir ir' : Irrx) : Prop := ir'.state = .stop ∧ ir'.rawlen = ir.rawlen ∧ ir'.rawbuf = ir.rawbuf

/-- In STOP a sample writes the timer alone. -/
theorem irTick_of_stop {c : Config} {ir : Irrx} (b : Bool) (h : ir.state = .stop) :
    irTick c b ir = { ir with timer := if b then satInc c ir.timer else 0 } := by
  cases b with
  | false => exact irTick_stop_mark h
  | true => exact irTick_stop_space h

theorem frozenAs_irTick {c : Config} {ir₀ ir : Irrx} (b : Bool) (h : FrozenAs ir₀ ir) :
    FrozenAs ir₀ (irTick c b ir) := by
  obtain ⟨hs, hlen, hbuf⟩ := h
  rw [irTick_of_stop b hs]
  exact ⟨hs, hlen, hbuf⟩

/-- The operations that leave STOP (R71, `42_host_access.md` R97). -/
theorem reset_or_resume_of_leaves_stop {i : Instr} {s t : State} (he : Effect s i t) (hs : s.ir.state = .stop)
    (ht : t.ir.state ≠ .stop) : i = .reset ∨ ∃ d : Data, i = .wrIrCtrl d ∧ d.getLsbD 0 = true := by
  cases he with
  | reset => exact .inl rfl
  | irtick b => exact absurd (irTick_state_of_stop b hs) ht
  | wrIrCtrl d =>
    by_cases hd : resumeOf d = true
    · exact .inr ⟨d, rfl, hd⟩
    · rw [withIr_ir, if_neg hd] at ht
      exact absurd hs ht
  | pwmtick | wrPwmCtrl | wrPwmLevel | portsOnly => exact absurd hs ht

/-- Settles O29: the exits, one sample, and every sequence of samples. -/
theorem samplesInStop : Obligations.SamplesInStop := by
  refine ⟨fun i s t hs h ht => reset_or_resume_of_leaves_stop (effect_of_exec h) hs ht, ?_, ?_⟩
  · intro s b hs
    refine ⟨_, exec_irtick b s, onlyIr_withIr s _, ?_⟩
    rw [tickCount_eq_satInc, withIr_ir, irTick_of_stop b hs]
    exact ⟨rfl, hs, rfl, rfl⟩
  · intro s bs hs
    exact runOps_irticks_keeps (P := FrozenAs s.ir) (fun b _ => frozenAs_irTick b) bs ⟨hs, rfl, rfl⟩

end Sys2Proof.Proofs

/-! What a PWM tick does to the counters, the phase and the pins, and what ticks in sequence do within a half-phase
(`41_phase_pwm.md` R76 to R84). -/

namespace Sys2Proof.Proofs

open Sys2Proof.Machine Sys2Proof.Safety

/-! ### One tick on PHPWM and on the ports -/

theorem exec_pwmtick (s : State) :
    exec .pwmtick s = .next ((s.withPwm (pwmTick s.cfg s.pwm)).withOut (pwmTickOut s.cfg s.pwm)) := rfl

@[simp] theorem pwmTick_phase (c : Config) (p : Phpwm) : (pwmTick c p).phase = nextPhase c p := rfl
@[simp] theorem pwmTick_cnt (c : Config) (p : Phpwm) : (pwmTick c p).cnt = nextCnt c p := rfl
@[simp] theorem pwmTick_ticks (c : Config) (p : Phpwm) : (pwmTick c p).ticks = nextTicks c p := rfl
@[simp] theorem pwmTick_halt (c : Config) (p : Phpwm) : (pwmTick c p).halt = p.halt := rfl
@[simp] theorem pwmTick_level (c : Config) (p : Phpwm) : (pwmTick c p).level = p.level := rfl
@[simp] theorem pwmTick_pin (c : Config) (p : Phpwm) : (pwmTick c p).pin = nextPins c p := rfl

@[simp] theorem levelAt_pwmTick (c : Config) (p : Phpwm) (i : Nat) : levelAt (pwmTick c p) i = levelAt p i := rfl

theorem nextTicks_eq (c : Config) (p : Phpwm) : nextTicks c p = (p.ticks + 1) % 2 ^ c.tkw := rfl

theorem onlyPwm_withPwm_withOut (s : State) (p : Phpwm) (o : PortOut) : OnlyPwm s ((s.withPwm p).withOut o) :=
  ⟨rfl, rfl, rfl, rfl⟩

/-- The vector at `then-visible` comes before the final one, and at a flip only (R79). -/
theorem pwmTickOut_chPin_of_flip {c : Config} {p : Phpwm} (hf : p.cnt + 1 = c.phaseTicks) :
    (pwmTickOut c p).chPin = [pinsThenVisible c p, nextPins c p] := by
  simp [pwmTickOut, isFlip_iff.mpr hf]

theorem pwmTickOut_chPin_of_not_flip {c : Config} {p : Phpwm} (hf : p.cnt + 1 ≠ c.phaseTicks) :
    (pwmTickOut c p).chPin = [nextPins c p] := by
  simp [pwmTickOut, isFlip, hf]

/-! ### Dark pin vectors -/

theorem get_eq_getElem {v : Pins} {j : Nat} (hj : j < v.length) : Pins.get v j = v[j] :=
  (List.getElem_eq_getD false).symm

theorem allLow_iff_get {v : Pins} : allLow v ↔ ∀ j, Pins.get v j = false := by
  constructor
  · intro hv j
    by_cases hj : j < v.length
    · exact get_eq_getElem hj ▸ hv _ (List.getElem_mem hj)
    · exact get_of_length_le (Nat.le_of_not_lt hj)
  · intro hv b hb
    obtain ⟨j, hj, rfl⟩ := List.getElem_of_mem hb
    exact get_eq_getElem hj ▸ hv j

theorem allLow_nextPins_of_halt {c : Config} {p : Phpwm} (hh : p.halt = true) : allLow (nextPins c p) :=
  allLow_iff_get.mpr (nextPins_of_halt hh)

/-- A tick that does not flip sets no pin (R80). -/
theorem allLow_nextPins_of_not_flip {c : Config} {p : Phpwm} (hf : p.cnt + 1 ≠ c.phaseTicks) (hp : allLow p.pin) :
    allLow (nextPins c p) := by
  cases hh : p.halt with
  | true => exact allLow_nextPins_of_halt hh
  | false =>
    refine allLow_iff_get.mpr fun j => Bool.eq_false_iff.mpr fun hj => ?_
    obtain ⟨-, hold, -⟩ := (nextPins_of_not_flip hh hf j).mp hj
    simp [allLow_iff_get.mp hp j] at hold

/-- At a flip's `then-visible` point no pin is asserted: those of the phase left were just cleared, and those of the
phase entered were not asserted before (R33, R79). -/
theorem allLow_pinsThenVisible {c : Config} {p : Phpwm} (hf : p.cnt + 1 = c.phaseTicks)
    (honly : onlyPhase c p.phase p.pin) : allLow (pinsThenVisible c p) := by
  refine allLow_iff_get.mpr fun j => Bool.eq_false_iff.mpr fun hj => ?_
  rw [pinsThenVisible, get_leave, nextPhase_of_flip hf] at hj
  obtain ⟨hlt, hentered, hold⟩ := hj
  exact other_ne p.phase (hentered.symm.trans (honly j hlt hold))

/-! ### What `ch_pin` shows in an operation -/

theorem neverBoth_of_onlyPhase {c : Config} {v : Pins} {q : Phase} (h : onlyPhase c q v) : neverBoth c v := by
  cases q with
  | A => exact .inl h
  | B => exact .inr h

theorem neverBoth_of_allLow {c : Config} {v : Pins} (h : allLow v) : neverBoth c v :=
  .inl fun j _ hj => by simp [allLow_iff_get.mp h j] at hj

namespace Effect

variable {s t : State} {i : Instr}

/-- An operation but for the PWM tick shows the one vector it leaves. -/
theorem chPin_eq (h : Effect s i t) (hi : i ≠ .pwmtick) : t.out.chPin = [t.pwm.pin] := by
  cases h with
  | pwmtick => exact absurd rfl hi
  | irtick | reset | wrPwmCtrl | wrPwmLevel | wrIrCtrl | portsOnly => rfl

theorem chPin_getLast? (h : Effect s i t) : t.out.chPin.getLast? = some t.pwm.pin := by
  by_cases hi : i = .pwmtick
  · subst hi
    cases h with
    | pwmtick => simp [pwmTickOut]
    | portsOnly _ _ hi => cases hi
  · rw [h.chPin_eq hi]
    rfl

/-- Every vector shown is dark or the final one: only a flip shows another, the dark one at `then-visible`. -/
theorem chPin_dark_or_final (h : Effect s i t) (hs : MachineInv s) {v : Pins} (hv : v ∈ t.out.chPin) :
    allLow v ∨ v = t.pwm.pin := by
  by_cases hi : i = .pwmtick
  · subst hi
    obtain ⟨-, -, -, -, -, -, -, honly, -⟩ := hs
    cases h with
    | pwmtick =>
      rw [withOut_out] at hv
      by_cases hf : s.pwm.cnt + 1 = s.cfg.phaseTicks
      · rw [pwmTickOut_chPin_of_flip hf, List.mem_pair] at hv
        obtain rfl | hfinal := hv
        · exact .inl (allLow_pinsThenVisible hf honly)
        · exact .inr hfinal
      · rw [pwmTickOut_chPin_of_not_flip hf, List.mem_singleton] at hv
        exact .inr hv
    | portsOnly _ _ hi => cases hi
  · rw [h.chPin_eq hi, List.mem_singleton] at hv
    exact .inr hv

end Effect

/-- Settles O46: every vector shown is dark, or the final one, which the invariant holds to one phase. -/
theorem neverBothPhases : Obligations.NeverBothPhases := by
  intro i s hs
  obtain ⟨t, ht, he⟩ := exec_effect i s
  refine ⟨t, ht, he.chPin_getLast?, fun v hv => ?_⟩
  obtain ⟨-, -, -, -, -, -, -, honly, -⟩ := he.machineInv hs
  rw [he.cfg_eq] at honly
  obtain hdark | rfl := he.chPin_dark_or_final hs hv
  · exact neverBoth_of_allLow hdark
  · exact neverBoth_of_onlyPhase honly

/-! ### The counters -/

/-- Settles O39: the tick moves the three counters, at a flip and elsewhere. -/
theorem tickAdvancesCounters : Obligations.TickAdvancesCounters := by
  refine ⟨fun i s t hp hr h => (effect_of_exec h).counters_eq hp hr, fun s => ?_⟩
  refine ⟨_, exec_pwmtick s, onlyPwm_withPwm_withOut s _ _, nextTicks_eq _ _, ?flip, ?other, rfl, rfl⟩
  case flip => exact fun hf => ⟨nextCnt_of_flip hf, nextPhase_of_flip hf⟩
  case other =>
    refine fun hf => ⟨nextPhase_of_not_flip hf, fun hs => ?_⟩
    obtain ⟨⟨-, -, -, hcntW, -⟩, -, hcnt, -⟩ := hs
    exact nextCnt_of_not_flip hcntW hcnt hf

/-! ### The pins after one tick -/

/-- Settles O40: the scale holds the whole half-phase, so the new count reaches no level of `LEVEL_MAX` and above. -/
theorem pinsAfterTick : Obligations.PinsAfterTick := by
  intro s hs hscale
  obtain ⟨⟨-, -, -, hcntW, -⟩, -, hcnt, -⟩ := hs
  refine ⟨_, exec_pwmtick s, nextPins_length _ _, fun j hj => ⟨fun hh => nextPins_of_halt hh j, ?flip, ?other⟩⟩
  case flip =>
    intro hh hf
    change Pins.get (nextPins s.cfg s.pwm) j = true ↔ _ ∧ ¬pinLevel s j ≤ nextCnt s.cfg s.pwm
    rw [nextPins_of_flip hh hf, nextCnt_of_flip hf, pinLevel, and_iff_right hj]
    refine and_congr_right' (not_congr ?_)
    omega
  case other =>
    intro hh hf
    have hlt := nextCnt_lt hcntW hcnt
    change Pins.get (nextPins s.cfg s.pwm) j = true ↔ _ ∧ ¬(_ ∧ pinLevel s j ≤ nextCnt s.cfg s.pwm)
    rw [nextPins_of_not_flip hh hf, pinLevel, and_iff_right hj]
    refine and_congr_right' (not_congr (and_congr_right' ?_))
    omega

/-! ### Ticks in sequence within a half-phase -/

section HalfPhase

variable {c : Config} {p : Phpwm}

/-- Ticks that do not reach a flip add to the count and keep the phase; HALT and the levels no tick writes. -/
theorem iterate_pwmTick_counters (hcntW : c.phaseTicks ≤ 2 ^ c.cntW) {n : Nat} (hn : p.cnt + n < c.phaseTicks) :
    ((pwmTick c)^[n] p).cnt = p.cnt + n ∧ ((pwmTick c)^[n] p).phase = p.phase ∧
    ((pwmTick c)^[n] p).halt = p.halt ∧ ((pwmTick c)^[n] p).level = p.level := by
  induction n with
  | zero => exact ⟨rfl, rfl, rfl, rfl⟩
  | succ n ih =>
    obtain ⟨hcnt, hphase, hhalt, hlevel⟩ := ih (by omega)
    have hnf : ((pwmTick c)^[n] p).cnt + 1 ≠ c.phaseTicks := by omega
    rw [Function.iterate_succ_apply']
    refine ⟨?_, ?_, hhalt, hlevel⟩
    · rw [pwmTick_cnt, nextCnt_of_not_flip hcntW (by omega) hnf, hcnt, Nat.add_assoc]
    · rw [pwmTick_phase, nextPhase_of_not_flip hnf, hphase]

/-- Within a half-phase, with HALT clear, no pin rises, and a pin of the active phase falls once the count has reached
its level (R80): the comparisons of all the ticks come to that of the last one, the count growing. -/
theorem iterate_pwmTick_pin (hcntW : c.phaseTicks ≤ 2 ^ c.cntW) {n j : Nat} (hn : p.cnt + n < c.phaseTicks)
    (hh : p.halt = false) (hj : j < c.nPin) :
    Pins.get ((pwmTick c)^[n] p).pin j = true ↔
      Pins.get p.pin j = true ∧
        (n = 0 ∨ ¬(c.pinPh j = p.phase ∧ levelAt p (c.pinCh j) ≤ p.cnt + n ∧ levelAt p (c.pinCh j) < c.levelMax)) := by
  induction n with
  | zero => simp
  | succ n ih =>
    obtain ⟨hcnt, hphase, hhalt, hlevel⟩ := iterate_pwmTick_counters (p := p) (n := n) hcntW (by omega)
    have hnf : ((pwmTick c)^[n] p).cnt + 1 ≠ c.phaseTicks := by omega
    have hlevelAt : levelAt ((pwmTick c)^[n] p) (c.pinCh j) = levelAt p (c.pinCh j) := by rw [levelAt, hlevel, levelAt]
    rw [Function.iterate_succ_apply', pwmTick_pin, nextPins_of_not_flip (hhalt.trans hh) hnf, ih (by omega),
      nextCnt_of_not_flip hcntW (by omega) hnf, hcnt, hphase, hlevelAt, and_iff_right hj, and_assoc]
    refine and_congr_right fun _ => ?_
    by_cases hph : c.pinPh j = p.phase
    · rw [and_iff_right hph, and_iff_right hph, and_iff_right hph]
      omega
    · simp [hph]

/-- Dark pins stay dark until a flip (R81). -/
theorem iterate_pwmTick_dark (hcntW : c.phaseTicks ≤ 2 ^ c.cntW) {n : Nat} (hn : p.cnt + n < c.phaseTicks)
    (hp : allLow p.pin) : allLow ((pwmTick c)^[n] p).pin := by
  induction n with
  | zero => exact hp
  | succ n ih =>
    obtain ⟨hcnt, -⟩ := iterate_pwmTick_counters (p := p) (n := n) hcntW (by omega)
    rw [Function.iterate_succ_apply', pwmTick_pin]
    exact allLow_nextPins_of_not_flip (by omega) (ih (by omega))

end HalfPhase

/-! ### Sequences of operations -/

/-- n ticks in a row write PHPWM alone, and tick it n times. -/
theorem runOps_pwmticks (n : Nat) (s : State) :
    ∃ t, runOps (List.replicate n .pwmtick) s = .next t ∧ OnlyPwm s t ∧ t.pwm = (pwmTick s.cfg)^[n] s.pwm := by
  induction n generalizing s with
  | zero => exact ⟨s, rfl, ⟨rfl, rfl, rfl, rfl⟩, rfl⟩
  | succ n ih =>
    rw [List.replicate_succ, runOps_cons _ (exec_pwmtick s)]
    exact ih _

/-- Settles O42: one tick under halt, and the ticks between the release and the next flip. -/
theorem haltKeepsPinsLow : Obligations.HaltKeepsPinsLow := by
  constructor
  · intro s hs hh
    have hdark : allLow (nextPins s.cfg s.pwm) := allLow_nextPins_of_halt hh
    refine ⟨_, exec_pwmtick s, fun v hv => ?_, hdark, nextTicks_eq _ _, ?_, ?_⟩
    · obtain hv | rfl := Effect.pwmtick.chPin_dark_or_final hs hv
      · exact hv
      · exact hdark
    · obtain ⟨⟨-, -, -, hcntW, -⟩, -, hcnt, -⟩ := hs
      split
      case isTrue hf => exact nextCnt_of_flip hf
      case isFalse hf => exact nextCnt_of_not_flip hcntW hcnt hf
    · split
      case isTrue hf => exact nextPhase_of_flip hf
      case isFalse hf => exact nextPhase_of_not_flip hf
  · intro s n hs hh hn
    obtain ⟨⟨-, -, -, hcntW, -⟩, -, -, -, -, -, -, -, hdark⟩ := hs
    have hrelease : exec (.wrPwmCtrl 0) s = .next (s.withPwm (writeHalt s.cfg false s.pwm)) := rfl
    obtain ⟨t, ht, -, hpwm⟩ := runOps_pwmticks n (s.withPwm (writeHalt s.cfg false s.pwm))
    obtain ⟨-, -, hhalt, -⟩ := iterate_pwmTick_counters (p := writeHalt s.cfg false s.pwm) hcntW hn
    have hpins := iterate_pwmTick_dark (p := writeHalt s.cfg false s.pwm) hcntW hn (hdark hh)
    rw [withPwm_cfg, withPwm_pwm] at hpwm
    rw [← hpwm] at hhalt hpins
    exact ⟨t, (runOps_cons _ hrelease).trans ht, hhalt, hpins⟩

/-- The last operation of a sequence shows dark vectors and the one it leaves. -/
theorem chPin_dark_or_final_of_runOps {is : List Instr} {i : Instr} {s t : State}
    (h : runOps (is ++ [i]) s = .next t) (hs : MachineInv s) {v : Pins} (hv : v ∈ t.out.chPin) :
    allLow v ∨ v = t.pwm.pin := by
  induction is generalizing s with
  | nil =>
    obtain ⟨u, hu, he⟩ := exec_effect i s
    rw [List.nil_append, runOps_cons _ hu] at h
    cases h
    exact he.chPin_dark_or_final hs hv
  | cons k is ih =>
    obtain ⟨u, hu, he⟩ := exec_effect k s
    rw [List.cons_append, runOps_cons _ hu] at h
    exact ih h (he.machineInv hs)

/-- The half-phase that a flip begins, on every scale (R82): a pin is asserted in interval k exactly when it belongs to
the phase entered and its level is above k or on the top of the scale. -/
theorem duty_after_flip {c : Config} {p : Phpwm} {j k : Nat} (hcntW : c.phaseTicks ≤ 2 ^ c.cntW) (hj : j < c.nPin)
    (hh : p.halt = false) (hf : p.cnt + 1 = c.phaseTicks) (hk : k < c.phaseTicks) :
    ((pwmTick c)^[k + 1] p).cnt = k ∧ ((pwmTick c)^[k + 1] p).phase = p.phase.other ∧
    (Pins.get ((pwmTick c)^[k + 1] p).pin j = true ↔
      c.pinPh j = p.phase.other ∧ (k < levelAt p (c.pinCh j) ∨ c.levelMax ≤ levelAt p (c.pinCh j))) := by
  have hcnt0 : (pwmTick c p).cnt = 0 := nextCnt_of_flip hf
  have hphase0 : (pwmTick c p).phase = p.phase.other := nextPhase_of_flip hf
  have hk0 : (pwmTick c p).cnt + k < c.phaseTicks := by omega
  obtain ⟨hcnt, hphase, -⟩ := iterate_pwmTick_counters hcntW hk0
  have hpin := iterate_pwmTick_pin hcntW hk0 hh hj
  rw [pwmTick_pin, nextPins_of_flip hh hf, levelAt_pwmTick, hcnt0, hphase0, and_iff_right hj] at hpin
  rw [Function.iterate_succ_apply]
  refine ⟨by omega, hphase.trans hphase0, hpin.trans ?_⟩
  rw [and_assoc]
  refine and_congr_right fun hph => ?_
  rw [and_iff_right hph]
  omega

/-- Settles O43: below `PHASE_TICKS` an interval is below `LEVEL_MAX`, so on top of the scale a pin is never cleared. -/
theorem dutyIsExact : Obligations.DutyIsExact := by
  intro s j k hs hscale hj hh hf hk
  have ⟨⟨_, _, _, hcntW, _⟩, _⟩ := hs
  obtain ⟨t, ht, -, hpwm⟩ := runOps_pwmticks (k + 1) s
  obtain ⟨hcnt, hphase, hpin⟩ := duty_after_flip hcntW hj hh hf hk
  rw [← hpwm] at hcnt hphase hpin
  refine ⟨t, ht, hcnt, hphase, hpin.trans (and_congr_right' ?_), fun v hv hget => ?_⟩
  · rw [pinLevel]
    omega
  · rw [List.replicate_succ'] at ht
    obtain hdark | rfl := chPin_dark_or_final_of_runOps ht hs hv
    · simp [allLow_iff_get.mp hdark j] at hget
    · exact hget

end Sys2Proof.Proofs

/-! What each access of the host port does (`42_host_access.md` R86 to R104): the words that spell it, what a `RD`
returns, what a `WR` writes and leaves alone, and `RESET`. -/

namespace Sys2Proof.Proofs

open Sys2Proof.Machine Sys2Proof.Safety

/-! ### How a host access ends -/

section Ends

variable {i : Instr} {s : State} {v w : Data}

theorem returns_of_respond (h : exec i s = respond s v) (hv : v = w) : Returns i s w := by
  subst hv
  exact ⟨_, h, rfl, rfl, rfl, rfl, rfl, rfl⟩

theorem hasNoEffect_of_ignore (h : exec i s = ignore s) : HasNoEffect i s := ⟨_, h, rfl, rfl, rfl, rfl, rfl, rfl⟩

theorem returns_rdWord {a : Index} (hv : regRead a s = v) :
    ∃ i, decode (rdWord a) = .ok i ∧ Returns i s v :=
  ⟨_, decode_rdWord a, returns_of_respond (exec_decodeRd a s) hv⟩

/-- A write word at a read-only or unmapped index spells an operation that is ignored. -/
theorem hasNoEffect_wrWord {a : Index} (h : ReadOnly a ∨ Unmapped a) (d : Data) (s : State) :
    ∃ i, decode (wrWord a d) = .ok i ∧ HasNoEffect i s := by
  refine ⟨_, decode_wrWord a d, hasNoEffect_of_ignore ?_⟩
  rw [exec_decodeWr, regWrite_of_ignored h, ignore]

end Ends

theorem onlyPwm_withPwm (s : State) (p : Phpwm) : OnlyPwm s (s.withPwm p) := ⟨rfl, rfl, rfl, rfl⟩

/-! ### Words written as a fixed part with operands put in by `or` -/

@[simp] theorem kind_or (v w : OpWord) : OpWord.kind (v ||| w) = v.kind ||| w.kind := by
  ext i hi
  simp [OpWord.kind]

@[simp] theorem index_or (v w : OpWord) : OpWord.index (v ||| w) = v.index ||| w.index := by
  ext i hi
  simp [OpWord.index]

@[simp] theorem data_or (v w : OpWord) : OpWord.data (v ||| w) = v.data ||| w.data := by
  ext i hi
  simp [OpWord.data]

/-- Data widened to a word is in the field `D` alone. -/
theorem setWidth_eq_mkWord (d : Data) : d.setWidth 42 = mkWord 0 0 d := by
  apply BitVec.eq_of_getLsbD_eq
  intro i hi
  rw [getLsbD_mkWord, BitVec.getLsbD_setWidth]
  by_cases hlow : i < 32
  · simp [hlow, hi]
  · simp [hlow, BitVec.getLsbD_of_ge d i (by omega)]

theorem or_data_eq_wrWord {w : OpWord} {a : Index} (hw : w = wrWord a 0) (d : Data) :
    w ||| d.setWidth 42 = wrWord a d := by
  rw [hw, setWidth_eq_mkWord]
  apply word_ext <;> simp [wrWord]

theorem decode_or_data {w : OpWord} {a : Index} (hw : w = wrWord a 0) (d : Data) :
    decode (w ||| d.setWidth 42) = .ok (decodeWr a d) := by
  rw [or_data_eq_wrWord hw, decode_wrWord]

theorem levelWord_eq (i : Fin 4) : 0x10800000000 ||| BitVec.ofNat 42 i.val <<< 32 = wrWord (levelIndex i) 0 := by
  revert i
  decide

theorem decodeWr_levelIndex (i : Fin 4) (d : Data) : decodeWr (levelIndex i) d = .wrPwmLevel i d := by
  fin_cases i <;> rfl

/-! ### Every index (R86) -/

/-- Settles O16: the decoder's operation at each index does what the host port's two functions say. -/
theorem everyAccessIsRegReadOrRegWrite : Obligations.EveryAccessIsRegReadOrRegWrite :=
  ⟨fun _ _ => returns_rdWord rfl,
    fun a d s => ⟨_, decode_wrWord a d, exec_decodeWr a d s, regWrite_hRdata a d s⟩⟩

/-! ### The values that reads return -/

theorem readCtrl_eq (p : Phpwm) : readCtrl p = if p.halt then 1 else 0 := by
  unfold readCtrl
  cases p.halt <;> rfl

theorem readPhase_eq (p : Phpwm) : readPhase p = if p.phase = .A then 0 else 1 := by
  unfold readPhase
  cases p.phase <;> rfl

theorem readRawlen_eq (ir : Irrx) : readRawlen ir = BitVec.ofNat 32 ir.rawlen.toNat :=
  (BitVec.ofNat_toNat 32 ir.rawlen).symm

/-- Bit j of `PWM_PINS` is pin j; a pin past `N_PIN` reads 0. -/
theorem getLsbD_readPins (c : Config) (p : Phpwm) {j : Nat} (hj : j < 32) :
    (readPins c p).getLsbD j = (decide (j < c.nPin) && Pins.get p.pin j) := by
  rw [readPins, BitVec.getLsbD_setWidth, BitVec.getLsbD_ofBoolListLE, decide_eq_true hj, Bool.true_and]
  exact get_tabulate c (Pins.get p.pin) j

/-- Settles O10: the flag and the phase by their values, the two counters as they stand. -/
theorem pwmRegisterReads : Obligations.PwmRegisterReads :=
  ⟨⟨rfl, rfl, rfl, rfl⟩, fun s => ⟨returns_of_respond rfl (readCtrl_eq s.pwm),
    returns_of_respond rfl (readPhase_eq s.pwm), returns_of_respond rfl rfl, returns_of_respond rfl rfl⟩⟩

/-- Settles O11, bit by bit. -/
theorem pinsRead : Obligations.PinsRead :=
  ⟨rfl, fun s => ⟨readPins s.cfg s.pwm, returns_of_respond rfl rfl, fun _ hj => getLsbD_readPins s.cfg s.pwm hj⟩⟩

/-- Settles O12: the write leaves `levelOf` of the data in its level and the others as they were, which the reads show. -/
theorem levelReadsAsWritten : Obligations.LevelReadsAsWritten := by
  refine ⟨by decide, fun s i hi => returns_of_respond rfl (readLevel_of_lt hi s.pwm), ?_⟩
  intro s i d ⟨_, _, _, _, hlevels, _⟩ hi
  have hread : ∀ j : Fin 4, j.val < s.cfg.nCh →
      readLevel s.cfg j (writeLevel s.cfg i (levelOf s.cfg d) s.pwm) =
        BitVec.ofNat 32 (if j.val = i.val ∧ i.val < s.cfg.nCh then levelOf s.cfg d else levelAt s.pwm j.val) := by
    intro j hj
    rw [readLevel_of_lt hj, levelAt_writeLevel _ _ _ _ _ hlevels]
  refine ⟨_, rfl, returns_of_respond rfl ?_, fun j hne hj => returns_of_respond rfl ?_⟩
  · exact (hread i hi).trans (by rw [if_pos ⟨rfl, hi⟩]; rfl)
  · exact (hread j hj).trans (by rw [if_neg fun ⟨heq, _⟩ => hne (Fin.ext heq)])

/-- Settles O13: the capture state by its four codes. -/
theorem irRegisterReads : Obligations.IrRegisterReads := by
  refine ⟨⟨rfl, rfl, rfl, rfl⟩, fun s => ⟨returns_of_respond rfl ?_, returns_of_respond rfl rfl,
    returns_of_respond rfl rfl, returns_of_respond rfl (readRawlen_eq s.ir)⟩⟩
  unfold readIrState
  cases s.ir.state <;> rfl

/-- Settles O14: the words are 128 fixed words; the read has a case on each side of `CAP`. -/
theorem bufferReads : Obligations.BufferReads :=
  ⟨by decide, fun s _ => ⟨fun hk => returns_of_respond rfl (readRawbuf_of_lt hk s.ir),
    fun hk => returns_of_respond rfl (readRawbuf_of_ge hk s.ir)⟩⟩

/-- Settles O15: every row answers the unmapped value, and `RegRead` is that value at every unmapped index. -/
theorem unmappedReadsGiveZero : Obligations.UnmappedReadsGiveZero := by
  refine ⟨fun s a => ?_, fun s a ha => returns_rdWord (regRead_of_unmapped ha s)⟩
  refine ⟨?_, ?_, ?_, ?_, ?_, ?_, ?_⟩ <;> exact returns_of_respond rfl rfl

/-! ### The two writable registers and the RESUME command -/

/-- Under the invariant the flag and the pins agree already, so writing the flag's own value changes nothing. -/
theorem writeHalt_self {c : Config} {p : Phpwm} (h : pwmShape c p) : writeHalt c p.halt p = p := by
  obtain ⟨-, -, -, -, hpins, -, hdark⟩ := h
  have hpin : (if p.halt then Pins.allLow c else p.pin) = p.pin := by
    split
    case isTrue hh => exact (List.eq_replicate_iff.mpr ⟨hpins, hdark hh⟩).symm
    case isFalse => rfl
  rw [writeHalt, hpin]

/-- Settles O17: the pins follow the written flag in the operation itself. -/
theorem haltWrite : Obligations.HaltWrite := by
  refine ⟨fun d => decode_or_data (a := 0x00) (by decide) d, fun s d => ⟨_, rfl, onlyPwm_withPwm s _, rfl, ?_⟩⟩
  refine ⟨fun hset => ?_, fun hclear => ?_, rfl, rfl, rfl, rfl, fun ⟨_, _, hshape⟩ hsame => ?_⟩
  · have hpin : (writeHalt s.cfg (haltOf d) s.pwm).pin = Pins.allLow s.cfg := if_pos hset
    rw [withPwm_pwm, hpin]
    exact ⟨allLow_pinsAllLow s.cfg, allLow_length s.cfg, congrArg ([·]) hpin⟩
  · rw [withPwm_pwm, writeHalt_pin, haltOf, hclear]
    rfl
  · rw [withPwm_pwm, haltOf, ← hsame, writeHalt_self hshape]

/-- Settles O18: the levels by the law of a level write, with `LEVEL_W` bits of the data; all else is untouched. -/
theorem levelWrite : Obligations.LevelWrite := by
  refine ⟨fun i d => ?_, fun s i d => ⟨_, rfl, onlyPwm_withPwm s _, ?_, rfl, rfl, rfl, rfl, rfl⟩⟩
  · rw [decode_or_data (levelWord_eq i), decodeWr_levelIndex]
  · intro ⟨_, _, _, _, hlevels, _⟩ hi
    refine ⟨(writeLevel_length s.cfg i _ s.pwm).trans hlevels, fun j _ => ?_⟩
    rw [withPwm_pwm, levelAt_writeLevel _ _ _ _ _ hlevels]
    simp [hi, levelOf, trunc]

/-- The command register's one effect: RESUME given in STOP (R97). -/
theorem resumeCommand_eq (d : Data) (ir : Irrx) :
    (if resumeOf d then resume ir else ir) =
      if d.getLsbD 0 = true ∧ ir.state = .stop then { ir with state := .idle, rawlen := 0 } else ir := by
  rw [resumeOf, resume, ite_and]

/-- Settles O19: the command has one effect and one condition. -/
theorem resumeCommand : Obligations.ResumeCommand := by
  refine ⟨fun d => decode_or_data (a := 0x11) (by decide) d, fun s d => ⟨_, rfl, onlyIr_withIr s _, ?_⟩⟩
  rw [withIr_ir, resumeCommand_eq]
  split
  case isTrue hresume => exact ⟨rfl, rfl, fun _ => ⟨rfl, rfl⟩, fun hnot => absurd hresume hnot⟩
  case isFalse hnot => exact ⟨rfl, rfl, fun hresume => absurd hresume hnot, fun _ => rfl⟩

/-! ### The writes with no effect -/

/-- Settles O20: each row is ignored, and `RegWrite` ignores every read-only index. -/
theorem readOnlyWritesHaveNoEffect : Obligations.ReadOnlyWritesHaveNoEffect := by
  refine ⟨fun s k d => ?_, fun s a d ha => hasNoEffect_wrWord (.inl ha) d s⟩
  refine ⟨?_, ?_, ?_, ?_, ?_, ?_, ?_, ?_⟩ <;> exact hasNoEffect_of_ignore rfl

/-- Settles O21: each row is ignored, and `RegWrite` ignores every unmapped index. -/
theorem unmappedWritesHaveNoEffect : Obligations.UnmappedWritesHaveNoEffect := by
  refine ⟨fun s a d => ?_, fun s a d ha => hasNoEffect_wrWord (.inr ha) d s⟩
  refine ⟨?_, ?_, ?_, ?_, ?_, ?_, ?_⟩ <;> exact hasNoEffect_of_ignore rfl

/-! ### RESET -/

/-- Only a sample and `RESET` write the timer: the RESUME command keeps it (`20_memory.md` R44). -/
theorem Effect.timer_eq {s t : State} {i : Instr} (h : Effect s i t) (hi : ∀ b, i ≠ .irtick b) (hr : i ≠ .reset) :
    t.ir.timer = s.ir.timer := by
  cases h with
  | irtick b => exact absurd rfl (hi b)
  | reset => exact absurd rfl hr
  | wrIrCtrl d =>
    rw [withIr_ir]
    split
    · exact resume_timer s.ir
    · rfl
  | pwmtick | wrPwmCtrl | wrPwmLevel | portsOnly => rfl

/-- Settles O24: `RESET` sets every element, and the frame of the counters and the timer is read off `Effect`. -/
theorem resetOperation : Obligations.ResetOperation := by
  refine ⟨rfl, fun i s t hr h => ?_, fun s => ?_⟩
  · have he := effect_of_exec h
    exact ⟨fun hp => he.counters_eq hp hr, fun hi => he.timer_eq hi hr⟩
  · exact ⟨resetBlock s, rfl, rfl, rfl, rfl, rfl, rfl, freshRawbuf_length s.cfg s.draws, rfl, rfl, rfl, rfl,
      List.length_replicate, fun _ => List.eq_of_mem_replicate, allLow_length s.cfg, allLow_pinsAllLow s.cfg⟩

end Sys2Proof.Proofs

/-! That no operation faults, traps, hangs or is refused (`60_exceptions.md` R107). -/

namespace Sys2Proof.Proofs

/-- Settles O9: `exec_effect`, by a case for each operation, gives the next state, and also what the operation did. -/
theorem everyOperationIsTotal : Obligations.EveryOperationIsTotal := by
  intro i s
  obtain ⟨t, hnext, _⟩ := exec_effect i s
  exact ⟨t, hnext⟩

end Sys2Proof.Proofs

/-! Words and operations (`30_encoding.md` sections 2 and 4): the decoder and the encoder undo each other, and the
rows of the operation map tell the decoded words apart. -/

namespace Sys2Proof.Proofs

/-! ### The indices that carry an operand (R57) -/

theorem entryOf_rawbufIndex (k : Fin 128) : entryOf (rawbufIndex k) = k := by
  revert k
  decide

theorem toNat_rawbufIndex (k : Fin 128) : (rawbufIndex k).toNat = 0x80 + k.val := by
  revert k
  decide

theorem levelIndex_channelOf {a : Index} (h : inRange 0x08 0x0B a = true) : levelIndex (channelOf a) = a := by
  have hall := forall_index (P := fun a => !inRange 0x08 0x0B a || decide (levelIndex (channelOf a) = a))
    (by decide +kernel) a
  simpa [h] using hall

theorem rawbufIndex_entryOf {a : Index} (h : 0x80 ≤ a.toNat) : rawbufIndex (entryOf a) = a := by
  have hall := forall_index (P := fun a => !decide (0x80 ≤ a.toNat) || decide (rawbufIndex (entryOf a) = a))
    (by decide +kernel) a
  simpa [h] using hall

/-! ### From the word to the operation and back -/

/-- `RD` words are canonical, at every index. -/
theorem encode_decodeRd (a : Index) : (decodeRd a).wellFormed = true ∧ encode (decodeRd a) = rdWord a := by
  fun_cases decodeRd a
  case case1 h | case2 h | case3 h | case4 h | case5 h | case6 h | case10 h | case11 h | case12 h | case13 h =>
    subst h
    exact ⟨rfl, rfl⟩
  case case7 h | case9 h | case14 h | case15 h | case16 h | case17 h => exact ⟨h, rfl⟩
  case case8 h => exact ⟨rfl, congrArg rdWord (levelIndex_channelOf h)⟩
  case case18 =>
    simp only [inRange_iff] at *
    exact ⟨rfl, congrArg rdWord (rawbufIndex_entryOf (by bv_omega))⟩

/-- `WR` words are canonical, at every index and with all data. -/
theorem encode_decodeWr (a : Index) (d : Data) :
    (decodeWr a d).wellFormed = true ∧ encode (decodeWr a d) = wrWord a d := by
  fun_cases decodeWr a d
  case case1 h | case2 h | case3 h | case4 h | case5 h | case6 h | case10 h | case11 h | case12 h | case13 h =>
    subst h
    exact ⟨rfl, rfl⟩
  case case7 h | case9 h | case14 h | case15 h | case16 h | case17 h => exact ⟨h, rfl⟩
  case case8 h => exact ⟨rfl, congrArg (wrWord · d) (levelIndex_channelOf h)⟩
  case case18 =>
    simp only [inRange_iff] at *
    exact ⟨rfl, congrArg (wrWord · d) (rawbufIndex_entryOf (by bv_omega))⟩

/-- The index of an `EVT` word with `A[7:2]` = 0 is its two low bits. -/
theorem index_eq_of_upper_zero (a : Index) (h : a.extractLsb' 2 6 = 0) :
    a = 0#6 ++ BitVec.ofBool (a.getLsbD 1) ++ BitVec.ofBool (a.getLsbD 0) := by
  have hall := forall_index (P := fun a => !decide (a.extractLsb' 2 6 = 0) ||
    decide (a = 0#6 ++ BitVec.ofBool (a.getLsbD 1) ++ BitVec.ofBool (a.getLsbD 0))) (by decide +kernel) a
  simpa [h] using hall

/-- An `EVT` word that spells a tick has no bit but the sample and the unit, and so is the tick's canonical word. -/
theorem encode_of_decodeEvt {a : Index} {d : Data} {i : Instr} :
    decodeEvt a d = .ok i → i.wellFormed = true ∧ encode i = mkWord 2 a d := by
  fun_cases decodeEvt a d
  case case3 hindex hdata hunit =>
    rintro ⟨⟩
    have ha := index_eq_of_upper_zero a (not_not.mp hindex)
    rw [hunit] at ha
    rw [not_not.mp hdata]
    exact ⟨rfl, congrArg (mkWord 2 · 0) ha.symm⟩
  case case5 hindex hdata hunit hsample =>
    rintro ⟨⟩
    have ha := index_eq_of_upper_zero a (not_not.mp hindex)
    rw [Bool.eq_false_iff.mpr hunit, Bool.eq_false_iff.mpr hsample] at ha
    rw [not_not.mp hdata]
    exact ⟨rfl, congrArg (mkWord 2 · 0) ha.symm⟩
  case case1 | case2 | case4 => rintro ⟨⟩

theorem encode_of_decodeRst {a : Index} {d : Data} {i : Instr} :
    decodeRst a d = .ok i → i.wellFormed = true ∧ encode i = mkWord 3 a d := by
  fun_cases decodeRst a d
  case case3 ha hd =>
    rintro ⟨⟩
    rw [not_not.mp ha, not_not.mp hd]
    exact ⟨rfl, rfl⟩
  case case1 | case2 => rintro ⟨⟩

/-- Settles O2: format by format, a word that decodes has the very fields of the operation's canonical word. -/
theorem encodeOfDecode : Obligations.EncodeOfDecode := by
  intro w i h
  obtain ⟨k, a, d, rfl⟩ : ∃ k a d, w = mkWord k a d := ⟨_, _, _, (mkWord_fields w).symm⟩
  rw [decode, kind_mkWord, index_mkWord, data_mkWord] at h
  obtain rfl | rfl | rfl | rfl := kind_cases k
  · by_cases hd : d = 0
    · subst hd
      obtain rfl : decodeRd a = i := Except.ok.inj h
      exact encode_decodeRd a
    · rw [if_pos rfl, if_neg hd] at h
      cases h
  · obtain rfl : decodeWr a d = i := Except.ok.inj h
    exact encode_decodeWr a d
  · exact encode_of_decodeEvt h
  · exact encode_of_decodeRst h

/-! ### From the operation to its word and back -/

theorem decodeRd_levelIndex (i : Fin 4) : decodeRd (levelIndex i) = .rdPwmLevel i := by
  fin_cases i <;> rfl

theorem decodeRd_rawbufIndex (k : Fin 128) : decodeRd (rawbufIndex k) = .rdIrRawbuf k := by
  have hk := toNat_rawbufIndex k
  simp only [inRange_iff, decodeRd]
  iterate 17 rw [if_neg (by bv_omega)]
  rw [entryOf_rawbufIndex]

theorem decodeWr_rawbufIndex (k : Fin 128) (d : Data) : decodeWr (rawbufIndex k) d = .wrIrRawbuf k d := by
  have hk := toNat_rawbufIndex k
  simp only [inRange_iff, decodeWr]
  iterate 17 rw [if_neg (by bv_omega)]
  rw [entryOf_rawbufIndex]

/-- A `RD` index in a row's range of unmapped indices is in no earlier row of the decoder. -/
theorem decodeRd_unmapped (a : Index) :
    (inRange 0x05 0x05 a = true → decodeRd a = .rdUnmapped05 a) ∧
    (inRange 0x06 0x07 a = true → decodeRd a = .rdUnmapped06to07 a) ∧
    (inRange 0x0C 0x0F a = true → decodeRd a = .rdUnmapped0Cto0F a) ∧
    (inRange 0x14 0x17 a = true → decodeRd a = .rdUnmapped14to17 a) ∧
    (inRange 0x18 0x1F a = true → decodeRd a = .rdUnmapped18to1F a) ∧
    (inRange 0x20 0x3F a = true → decodeRd a = .rdUnmapped20to3F a) ∧
    (inRange 0x40 0x7F a = true → decodeRd a = .rdUnmapped40to7F a) := by
  simp only [inRange_iff, decodeRd]
  refine ⟨fun h => ?_, fun h => ?_, fun h => ?_, fun h => ?_, fun h => ?_, fun h => ?_, fun h => ?_⟩
  · iterate 5 rw [if_neg (by bv_omega)]
    rw [if_pos (by bv_omega)]
  · iterate 6 rw [if_neg (by bv_omega)]
    rw [if_pos (by bv_omega)]
  · iterate 8 rw [if_neg (by bv_omega)]
    rw [if_pos (by bv_omega)]
  · iterate 13 rw [if_neg (by bv_omega)]
    rw [if_pos (by bv_omega)]
  · iterate 14 rw [if_neg (by bv_omega)]
    rw [if_pos (by bv_omega)]
  · iterate 15 rw [if_neg (by bv_omega)]
    rw [if_pos (by bv_omega)]
  · iterate 16 rw [if_neg (by bv_omega)]
    rw [if_pos (by bv_omega)]

/-- The same for `WR`. -/
theorem decodeWr_unmapped (a : Index) (d : Data) :
    (inRange 0x05 0x05 a = true → decodeWr a d = .wrUnmapped05 a d) ∧
    (inRange 0x06 0x07 a = true → decodeWr a d = .wrUnmapped06to07 a d) ∧
    (inRange 0x0C 0x0F a = true → decodeWr a d = .wrUnmapped0Cto0F a d) ∧
    (inRange 0x14 0x17 a = true → decodeWr a d = .wrUnmapped14to17 a d) ∧
    (inRange 0x18 0x1F a = true → decodeWr a d = .wrUnmapped18to1F a d) ∧
    (inRange 0x20 0x3F a = true → decodeWr a d = .wrUnmapped20to3F a d) ∧
    (inRange 0x40 0x7F a = true → decodeWr a d = .wrUnmapped40to7F a d) := by
  simp only [inRange_iff, decodeWr]
  refine ⟨fun h => ?_, fun h => ?_, fun h => ?_, fun h => ?_, fun h => ?_, fun h => ?_, fun h => ?_⟩
  · iterate 5 rw [if_neg (by bv_omega)]
    rw [if_pos (by bv_omega)]
  · iterate 6 rw [if_neg (by bv_omega)]
    rw [if_pos (by bv_omega)]
  · iterate 8 rw [if_neg (by bv_omega)]
    rw [if_pos (by bv_omega)]
  · iterate 13 rw [if_neg (by bv_omega)]
    rw [if_pos (by bv_omega)]
  · iterate 14 rw [if_neg (by bv_omega)]
    rw [if_pos (by bv_omega)]
  · iterate 15 rw [if_neg (by bv_omega)]
    rw [if_pos (by bv_omega)]
  · iterate 16 rw [if_neg (by bv_omega)]
    rw [if_pos (by bv_omega)]

/-- Settles O1: the index of each operation's word is in the operation's own row of the decoder. -/
theorem decodeOfEncode : Obligations.DecodeOfEncode := by
  intro i hi
  cases i with
  | pwmtick | reset => rfl
  | irtick s => exact decode_irtickWord s
  | rdPwmLevel i => rw [encode, decode_rdWord, decodeRd_levelIndex]
  | wrPwmLevel i d => rw [encode, decode_wrWord, decodeWr_levelIndex]
  | rdIrRawbuf k => rw [encode, decode_rdWord, decodeRd_rawbufIndex]
  | wrIrRawbuf k d => rw [encode, decode_wrWord, decodeWr_rawbufIndex]
  | rdUnmapped05 a | rdUnmapped06to07 a | rdUnmapped0Cto0F a | rdUnmapped14to17 a | rdUnmapped18to1F a
  | rdUnmapped20to3F a | rdUnmapped40to7F a =>
    obtain ⟨h05, h06, h0C, h14, h18, h20, h40⟩ := decodeRd_unmapped a
    simp only [encode, decode_rdWord, Except.ok.injEq]
    solve_by_elim
  | wrUnmapped05 a d | wrUnmapped06to07 a d | wrUnmapped0Cto0F a d | wrUnmapped14to17 a d | wrUnmapped18to1F a d
  | wrUnmapped20to3F a d | wrUnmapped40to7F a d =>
    obtain ⟨h05, h06, h0C, h14, h18, h20, h40⟩ := decodeWr_unmapped a d
    simp only [encode, decode_wrWord, Except.ok.injEq]
    solve_by_elim
  | rdPwmCtrl | rdPwmPhase | rdPwmCnt | rdPwmTicks | rdPwmPins | rdIrState | rdIrCtrl | rdIrTimer | rdIrRawlen =>
    exact decode_rdWord _
  | wrPwmCtrl | wrPwmPhase | wrPwmCnt | wrPwmTicks | wrPwmPins | wrIrState | wrIrCtrl | wrIrTimer | wrIrRawlen =>
    exact decode_wrWord _ _

/-! ### The rows of the operation map -/

open Laws.EncodeFitsRow in
/-- The word of a well-formed operation fits the operation's own row: the family of `Laws/PerInstr.lean` in one. -/
theorem encode_fits_opRow (i : Instr) : Statement i := by
  cases i
  exacts [pwmtick, irtick _, reset, rdPwmCtrl, wrPwmCtrl _, rdPwmPhase, rdPwmCnt, rdPwmTicks, rdPwmPins, rdPwmLevel
    _, wrPwmLevel _ _, rdIrState, rdIrCtrl, wrIrCtrl _, rdIrTimer, rdIrRawlen, rdIrRawbuf _, wrPwmPhase _, wrPwmCnt
    _, wrPwmTicks _, wrPwmPins _, wrIrState _, wrIrTimer _, wrIrRawlen _, wrIrRawbuf _ _, rdUnmapped05 _,
    rdUnmapped06to07 _, rdUnmapped0Cto0F _, rdUnmapped14to17 _, rdUnmapped18to1F _, rdUnmapped20to3F _,
    rdUnmapped40to7F _, wrUnmapped05 _ _, wrUnmapped06to07 _ _, wrUnmapped0Cto0F _ _, wrUnmapped14to17 _ _,
    wrUnmapped18to1F _ _, wrUnmapped20to3F _ _, wrUnmapped40to7F _ _]

/-- One operation of each row, in the order of `Instr`; the rows of the map are theirs (R58). -/
def opRows : List OpRow :=
  [.pwmtick, .irtick false, .reset, .rdPwmCtrl, .wrPwmCtrl 0, .rdPwmPhase, .rdPwmCnt, .rdPwmTicks, .rdPwmPins,
    .rdPwmLevel 0, .wrPwmLevel 0 0, .rdIrState, .rdIrCtrl, .wrIrCtrl 0, .rdIrTimer, .rdIrRawlen, .rdIrRawbuf 0,
    .wrPwmPhase 0, .wrPwmCnt 0, .wrPwmTicks 0, .wrPwmPins 0, .wrIrState 0, .wrIrTimer 0, .wrIrRawlen 0,
    .wrIrRawbuf 0 0, .rdUnmapped05 0, .rdUnmapped06to07 0, .rdUnmapped0Cto0F 0, .rdUnmapped14to17 0,
    .rdUnmapped18to1F 0, .rdUnmapped20to3F 0, .rdUnmapped40to7F 0, .wrUnmapped05 0 0, .wrUnmapped06to07 0 0,
    .wrUnmapped0Cto0F 0 0, .wrUnmapped14to17 0 0, .wrUnmapped18to1F 0 0, .wrUnmapped20to3F 0 0,
    .wrUnmapped40to7F 0 0].map opRow

/-- The row of an operation stands at the operation's place in `Instr`, whatever its operands. -/
theorem opRows_ctorIdx (i : Instr) : opRows[i.ctorIdx]? = some (opRow i) := by cases i <;> rfl

/-- Two rows that agree on the bits both of them fix are one row (R58). -/
theorem opRows_disjoint : ∀ m n : Fin opRows.length,
    opRows[m].pattern &&& opRows[n].mask = opRows[n].pattern &&& opRows[m].mask → m = n := by
  decide +kernel

/-- A word fits one row at most. -/
theorem opRow_eq_of_fits {w : OpWord} {i j : Instr} (hi : w &&& (opRow i).mask = (opRow i).pattern)
    (hj : w &&& (opRow j).mask = (opRow j).pattern) : opRow j = opRow i := by
  obtain ⟨hm, hmi⟩ := List.getElem?_eq_some_iff.mp (opRows_ctorIdx i)
  obtain ⟨hn, hnj⟩ := List.getElem?_eq_some_iff.mp (opRows_ctorIdx j)
  have hagree : (opRow i).pattern &&& (opRow j).mask = (opRow j).pattern &&& (opRow i).mask := by
    rw [← hi, ← hj, BitVec.and_assoc, BitVec.and_assoc, BitVec.and_comm (opRow i).mask]
  rw [← hmi, ← hnj] at hagree ⊢
  have hsame := opRows_disjoint ⟨_, hm⟩ ⟨_, hn⟩ hagree
  simp only [Fin.mk.injEq] at hsame
  simp only [hsame]

/-- Settles O4: the word is that of its operation, so it fits the operation's row, and no two rows have a word in
common. -/
theorem decoderFollowsOperationMap : Obligations.DecoderFollowsOperationMap := by
  intro w i h j
  obtain ⟨hi, rfl⟩ := encodeOfDecode w i h
  have hfits := encode_fits_opRow i hi
  exact ⟨opRow_eq_of_fits hfits, fun hrow => hrow ▸ hfits⟩

/-- Settles O6: thirteen fixed words. -/
theorem spelledWordsDecode : Obligations.SpelledWordsDecode := by
  unfold Obligations.SpelledWordsDecode
  decide

end Sys2Proof.Proofs

/-! Sequences of operations on IRRX: a frozen frame under every operation, what the records of a frame keep
(`70_reset_and_hazards.md` section 3), and runs of samples (`40_ir_capture.md` section 3). -/

namespace Sys2Proof.Proofs

open Sys2Proof.Machine Sys2Proof.Safety

/-! ### Every sequence of operations -/

/-- Whatever each operation of a sequence keeps, the sequence keeps; and it is performed to its end. -/
theorem runOps_keeps {P : State → Prop} {is : List Instr} {s : State}
    (hkeep : ∀ i ∈ is, ∀ s t, Effect s i t → P s → P t) (hs : P s) : ∃ t, runOps is s = .next t ∧ P t := by
  induction is generalizing s with
  | nil => exact ⟨s, rfl, hs⟩
  | cons i is ih =>
    obtain ⟨u, hu, he⟩ := exec_effect i s
    rw [runOps_cons is hu]
    exact ih (fun k hk => hkeep k (List.mem_cons_of_mem i hk)) (hkeep i List.mem_cons_self s u he hs)

/-- A sequence in two parts. -/
theorem runOps_append {is : List Instr} {s t : State} (js : List Instr) (h : runOps is s = .next t) :
    runOps (is ++ js) s = runOps js t := by
  induction is generalizing s with
  | nil =>
    obtain rfl : s = t := Host.Outcome.next.inj h
    rfl
  | cons i is ih =>
    obtain ⟨u, hu, -⟩ := exec_effect i s
    rw [runOps_cons is hu] at h
    rw [List.cons_append, runOps_cons _ hu, ih h]

/-! ### The frozen frame (`70_reset_and_hazards.md` R127) -/

/-- In STOP only RESUME and `RESET` touch the frame. -/
theorem Effect.frozenAs {ir₀ : Irrx} {i : Instr} {s t : State} (h : Effect s i t) (hi : endsFrame i = false)
    (hs : FrozenAs ir₀ s.ir) : FrozenAs ir₀ t.ir := by
  cases h with
  | irtick b => exact frozenAs_irTick b hs
  | reset => cases hi
  | wrIrCtrl d =>
    have hd : ¬ resumeOf d = true := Bool.eq_false_iff.mp hi
    rw [withIr_ir, if_neg hd]
    exact hs
  | pwmtick | wrPwmCtrl | wrPwmLevel | portsOnly => exact hs

/-- Settles O30, by induction on the sequence: each operation keeps the frame frozen. -/
theorem frameIsFrozenUntilResume : Obligations.FrameIsFrozenUntilResume := by
  intro is s his hs
  exact runOps_keeps (P := fun t => FrozenAs s.ir t.ir) (fun i hi _ _ he => he.frozenAs (his i hi)) ⟨hs, rfl, rfl⟩

/-! ### What a record does to the frame (`70_reset_and_hazards.md` R128) -/

section Frame

variable {c : Config} {ir : Irrx}

/-- A tick count is at least 1, because `TMAX` is more than `GAP_TICKS` (R5). -/
theorem one_le_satInc (hw : c.wf) (t : Nat) : 1 ≤ satInc c t := by
  obtain ⟨⟨htmax, -⟩, -⟩ := hw
  rw [satInc_eq]
  omega

theorem frameContract_of_empty (h : ir.rawlen.toNat = 0) : frameContract c ir := by
  constructor <;> omega

/-- A record keeps the contract when what it writes is at least one tick, and a gap if it is the frame's first entry. -/
theorem frameContract_record {d : Nat} {x : IrState} (hcap : c.cap ≤ 128) (hbuf : ir.rawbuf.length = c.cap)
    (hlen : ir.rawlen.toNat < c.cap) (hd : 1 ≤ d) (hgap : ir.rawlen.toNat = 0 → c.gapTicks ≤ d)
    (h : frameContract c ir) : frameContract c (record c d x ir) := by
  obtain ⟨hfirst, hall⟩ := h
  have hroom : ir.rawlen.toNat < ir.rawbuf.length := by omega
  constructor
  · intro _
    rw [irEntry_record]
    split
    case isTrue hzero => exact hgap hzero.1.symm
    case isFalse hzero => exact hfirst (Nat.pos_of_ne_zero fun h0 => hzero ⟨h0.symm, hroom⟩)
  · intro k hk
    rw [record_rawlen_toNat c d x ir (by omega)] at hk
    rw [irEntry_record]
    split
    case isTrue => exact hd
    case isFalse hne => exact hall k (by omega)

theorem IrTickEffect.frameContract {b : Bool} {ir' : Irrx} (he : IrTickEffect c ir b ir') (hw : c.wf)
    (hshape : Safety.irShape c ir) (h : Safety.frameContract c ir) : Safety.frameContract c ir' := by
  have hd := one_le_satInc hw ir.timer
  obtain ⟨⟨-, hcap4, hcap, -⟩, -⟩ := hw
  obtain ⟨hbuf, -, -, -, -, hmark, hspace, -⟩ := hshape
  cases he with
  | timerOnly | endFrame => exact h
  | capture hs hg => exact frameContract_record hcap hbuf (by simp; omega) hd (fun _ => hg) (frameContract_of_empty rfl)
  | endMark hs =>
    obtain ⟨hodd, hlt⟩ := hmark hs
    exact frameContract_record hcap hbuf hlt hd (by omega) h
  | endSpace hs =>
    obtain ⟨-, hge, hlt⟩ := hspace hs
    exact frameContract_record hcap hbuf hlt hd (by omega) h

/-- RESUME keeps the frame or empties it. -/
theorem frameContract_resume (h : frameContract c ir) : frameContract c (resume ir) := by
  by_cases hs : ir.state = .stop
  · rw [resume_of_stop hs]
    exact frameContract_of_empty rfl
  · rw [resume_of_not_stop hs]
    exact h

end Frame

theorem frameContract_afterReset (c : Config) (n : Nat) : frameContract c (Irrx.afterReset c n) :=
  frameContract_of_empty rfl

theorem Effect.frameContract {s t : State} {i : Instr} (h : Effect s i t) (hs : MachineInv s)
    (hframe : Safety.frameContract s.cfg s.ir) : Safety.frameContract t.cfg t.ir := by
  obtain ⟨hw, hshape, -⟩ := hs
  cases h with
  | irtick b => exact (irTick_effect s.cfg b s.ir).frameContract hw hshape hframe
  | reset => exact frameContract_afterReset s.cfg s.draws
  | wrIrCtrl d =>
    rw [withIr_cfg, withIr_ir]
    split
    · exact frameContract_resume hframe
    · exact hframe
  | pwmtick | wrPwmCtrl | wrPwmLevel | portsOnly => exact hframe

/-- Settles O38: an empty frame meets the contract, and a record extends it by a count of at least one tick. -/
theorem frameContractIsKept : Obligations.FrameContractIsKept := by
  refine ⟨frameContract_afterReset _ _, fun s t hs hframe h => ?_⟩
  obtain rfl | ⟨i, rest, he⟩ := step_cases h
  · exact hframe
  · exact he.frameContract hs hframe

/-! ### Where records are made (`10_state.md` R14, `40_ir_capture.md` R67) -/

section Records

variable {c : Config} {ir ir' : Irrx} {b : Bool}

theorem record_entry_changed {d k : Nat} {x : IrState} (h : irEntry (record c d x ir) k ≠ irEntry ir k) :
    k = ir.rawlen.toNat ∧ k < ir.rawbuf.length ∧ irEntry (record c d x ir) k = d := by
  rw [irEntry_record] at h ⊢
  split at h
  case isTrue hk => exact ⟨hk.1, hk.1 ▸ hk.2, if_pos hk⟩
  case isFalse => exact absurd rfl h

/-- A sample changes an entry by a record, outside STOP and at the index `IR_RAWLEN`. -/
theorem IrTickEffect.entry_changed (he : IrTickEffect c ir b ir') (h : Safety.irShape c ir) {k : Nat}
    (hk : irEntry ir' k ≠ irEntry ir k) :
    ir.state ≠ .stop ∧ k = ir.rawlen.toNat ∧ k < c.cap ∧ irEntry ir' k = satInc c ir.timer := by
  obtain ⟨hbuf, -, -, -, hidle, -⟩ := h
  rw [← hbuf]
  cases he with
  | timerOnly | endFrame => exact absurd rfl hk
  | capture hs =>
    obtain ⟨hat, hentry⟩ := record_entry_changed (ir := { ir with rawlen := 0 }) hk
    exact ⟨by simp [hs], hat.trans (hidle hs).symm, hentry⟩
  | endMark hs | endSpace hs => exact ⟨by simp [hs], record_entry_changed hk⟩

/-- With an even `CAP` the buffer fills in MARK: in SPACE the length is even, and a capture starts with one entry. -/
theorem IrTickEffect.fills_in_mark (he : IrTickEffect c ir b ir') (hw : c.wf) (h : Safety.irShape c ir)
    (heven : c.cap % 2 = 0) (hs : ir.state ≠ .stop) (hfull : ir'.rawlen.toNat = c.cap) :
    ir.state = .mark ∧ b = true ∧ ir'.state = .stop ∧ ir'.timer = 0 := by
  obtain ⟨⟨-, hcap4, hcap, -⟩, -⟩ := hw
  obtain ⟨-, -, -, -, hidle, hmark, hspace, -⟩ := h
  cases he with
  | timerOnly =>
    change ir.rawlen.toNat = c.cap at hfull
    cases hst : ir.state with
    | idle => exact absurd (hidle hst) (by omega)
    | mark => exact absurd (hmark hst) (by omega)
    | space => exact absurd (hspace hst) (by omega)
    | stop => exact absurd hst hs
  | capture =>
    rw [record_rawlen_toNat _ _ _ _ (by simp)] at hfull
    exact absurd hfull (by simp; omega)
  | endMark hst =>
    obtain ⟨-, hlt⟩ := hmark hst
    rw [record_rawlen_toNat _ _ _ _ (by omega)] at hfull
    exact ⟨hst, rfl, if_pos hfull, rfl⟩
  | endSpace hst =>
    obtain ⟨hlen, -, hlt⟩ := hspace hst
    rw [record_rawlen_toNat _ _ _ _ (by omega)] at hfull
    omega
  | endFrame hst =>
    obtain ⟨-, -, hlt⟩ := hspace hst
    exact absurd hfull (Nat.ne_of_lt hlt)

end Records

/-- Settles O37: of the operations but `RESET` only a sample writes entries; RESUME keeps them all. -/
theorem entriesChangeOnlyByRecord : Obligations.EntriesChangeOnlyByRecord := by
  intro i s t k ⟨_, hshape, _⟩ hr h hk
  cases effect_of_exec h with
  | reset => exact absurd rfl hr
  | irtick b =>
    rw [tickCount_eq_satInc]
    exact ⟨⟨b, rfl⟩, (irTick_effect s.cfg b s.ir).entry_changed hshape hk⟩
  | wrIrCtrl d =>
    refine absurd ?_ hk
    rw [withIr_ir]
    split
    · rw [irEntry, resume_rawbuf, irEntry]
    · rfl
  | pwmtick | wrPwmCtrl | wrPwmLevel | portsOnly => exact absurd rfl hk

/-- Settles O35: the sample that fills the buffer is a space in MARK. -/
theorem overflowComesFromMark : Obligations.OverflowComesFromMark := by
  intro s b ⟨hw, hshape, _⟩ heven hs
  exact ⟨_, exec_irtick b s, (irTick_effect s.cfg b s.ir).fills_in_mark hw hshape heven hs⟩

/-! ### Runs of samples (`40_ir_capture.md` section 3) -/

/-- n samples in a row write IRRX alone, and tick it n times. -/
theorem runOps_irticks (n : Nat) (b : Bool) (s : State) :
    ∃ t, runOps (List.replicate n (.irtick b)) s = .next t ∧ OnlyIr s t ∧ t.ir = (irTick s.cfg b)^[n] s.ir := by
  induction n generalizing s with
  | zero => exact ⟨s, rfl, ⟨rfl, rfl, rfl, rfl⟩, rfl⟩
  | succ n ih =>
    rw [List.replicate_succ, runOps_cons _ (exec_irtick b s)]
    exact ih _

/-- n equal samples, and one more that ends the run. -/
theorem runOps_irticks_then (n : Nat) (b b' : Bool) (s : State) :
    ∃ t, runOps (List.replicate n (.irtick b) ++ [.irtick b']) s = .next t ∧ OnlyIr s t ∧
      t.ir = irTick s.cfg b' ((irTick s.cfg b)^[n] s.ir) := by
  obtain ⟨u, hu, ⟨hcfg, hpwm, hops, hdraws⟩, hir⟩ := runOps_irticks n b s
  rw [runOps_append _ hu, runOps_cons _ (exec_irtick b' u)]
  exact ⟨_, rfl, ⟨hcfg, hpwm, hops, hdraws⟩, by rw [withIr_ir, hcfg, hir]⟩

section Runs

variable {c : Config} {ir : Irrx}

/-- The tick that follows n ticks from 0 counts n + 1, saturating. -/
theorem satInc_min (c : Config) (n : Nat) : satInc c (min n c.tmax) = min (n + 1) c.tmax := by
  rw [satInc_eq]
  omega

/-- Samples that only count, from timer 0, count up to `TMAX`. -/
theorem iterate_irTick_counts {b : Bool} {n : Nat} (ht : ir.timer = 0)
    (hcount : ∀ m < n, irTick c b { ir with timer := min m c.tmax } = { ir with timer := min (m + 1) c.tmax }) :
    (irTick c b)^[n] ir = { ir with timer := min n c.tmax } := by
  induction n with
  | zero => rw [Function.iterate_zero_apply, Nat.zero_min, ← ht]
  | succ n ih =>
    rw [Function.iterate_succ_apply', ih fun m hm => hcount m (by omega), hcount n (by omega)]

theorem iterate_irTick_mark (n : Nat) (hs : ir.state = .mark) (ht : ir.timer = 0) :
    (irTick c false)^[n] ir = { ir with timer := min n c.tmax } :=
  iterate_irTick_counts ht fun m _ => by
    rw [irTick_mark_mark (ir := { ir with timer := min m c.tmax }) hs, satInc_min]

theorem iterate_irTick_idle (n : Nat) (hs : ir.state = .idle) (ht : ir.timer = 0) :
    (irTick c true)^[n] ir = { ir with timer := min n c.tmax } :=
  iterate_irTick_counts ht fun m _ => by
    rw [irTick_idle_space (ir := { ir with timer := min m c.tmax }) hs, satInc_min]

/-- Spaces in a frame stay in SPACE up to the count `GAP_TICKS`, and from the next one on in STOP. -/
theorem iterate_irTick_space (hw : c.wf) (n : Nat) (hs : ir.state = .space) (ht : ir.timer = 0) :
    (irTick c true)^[n] ir =
      { ir with timer := min n c.tmax, state := if n ≤ c.gapTicks then .space else .stop } := by
  obtain ⟨⟨htmax, -⟩, -⟩ := hw
  induction n with
  | zero => rw [Function.iterate_zero_apply, Nat.zero_min, if_pos (Nat.zero_le _), ← ht, ← hs]
  | succ n ih =>
    rw [Function.iterate_succ_apply', ih]
    by_cases hn : n ≤ c.gapTicks
    · rw [if_pos hn]
      by_cases hgap : n + 1 ≤ c.gapTicks
      · rw [irTick_space_space rfl (by rw [satInc_min]; omega), satInc_min, if_pos hgap]
      · rw [irTick_space_gap rfl (by rw [satInc_min]; omega), satInc_min, if_neg hgap]
    · rw [if_neg hn, irTick_stop_space rfl, satInc_min, if_neg (by omega)]

end Runs

/-- Settles O31: the marks count, and the space records the count. -/
theorem markOfManyTicksIsRecorded : Obligations.MarkOfManyTicksIsRecorded := by
  intro s n ⟨⟨⟨_, _, hcap, _⟩, _⟩, ⟨hbuf, _, _, _, _, hmark, _⟩, _⟩ hs ht
  obtain ⟨-, hlt⟩ := hmark hs
  obtain ⟨t, hrun, honly, hir⟩ := runOps_irticks_then n false true s
  rw [iterate_irTick_mark n hs ht, irTick_mark_space (ir := { s.ir with timer := min n s.cfg.tmax }) hs,
    satInc_min] at hir
  obtain ⟨htimer, -, hlen, hentry, -⟩ :=
    record_appends (ir := { s.ir with timer := min n s.cfg.tmax }) (min (n + 1) s.cfg.tmax) .space hcap hbuf hlt
  rw [← hir] at htimer hlen hentry
  exact ⟨t, hrun, honly, hentry, hlen, htimer⟩

/-- Settles O32: the spaces count and stay in SPACE, and the mark records the count, which is at most `TMAX`. -/
theorem spaceOfManyTicksIsRecorded : Obligations.SpaceOfManyTicksIsRecorded := by
  intro s n ⟨hw, ⟨hbuf, _, _, _, _, _, hspace, _⟩, _⟩ hs ht hn
  obtain ⟨-, -, hlt⟩ := hspace hs
  obtain ⟨t, hrun, honly, hir⟩ := runOps_irticks_then n true false s
  rw [iterate_irTick_space hw n hs ht, if_pos hn, irTick_space_mark rfl, satInc_min] at hir
  obtain ⟨⟨htmax, -, hcap, -⟩, -⟩ := hw
  obtain ⟨htimer, -, hlen, hentry, -⟩ :=
    record_appends (ir := { s.ir with timer := min n s.cfg.tmax, state := .space }) (min (n + 1) s.cfg.tmax) .mark
      hcap hbuf hlt
  rw [← hir] at htimer hlen hentry
  exact ⟨t, hrun, honly, hentry.trans (Nat.min_eq_left (by omega)), hlen, htimer⟩

/-- Settles O33: the run of spaces writes the timer and the capture state alone. -/
theorem frameEndsAfterGap : Obligations.FrameEndsAfterGap := by
  intro s n hw hs ht
  obtain ⟨t, hrun, honly, hir⟩ := runOps_irticks n true s
  rw [iterate_irTick_space hw n hs ht] at hir
  refine ⟨t, hrun, honly, ?_⟩
  rw [hir]
  exact ⟨rfl, rfl, rfl, rfl⟩

/-- Settles O34: the spaces count, and the mark starts a capture when the count with itself is a gap. -/
theorem captureStartsAfterLeadingGap : Obligations.CaptureStartsAfterLeadingGap := by
  intro s n ⟨⟨⟨htmax, hcap4, _⟩, _⟩, ⟨hbuf, _⟩, _⟩ hs ht
  obtain ⟨t, hrun, honly, hir⟩ := runOps_irticks_then n true false s
  rw [iterate_irTick_idle n hs ht] at hir
  refine ⟨t, hrun, honly, ?_⟩
  by_cases hgap : s.cfg.gapTicks ≤ n + 1
  · rw [irTick_idle_start (ir := { s.ir with timer := min n s.cfg.tmax }) hs (by rw [satInc_min]; omega),
      satInc_min] at hir
    obtain ⟨htimer, hstate, hlen, hentry, -⟩ :=
      record_starts_capture (ir := { s.ir with timer := min n s.cfg.tmax }) (min (n + 1) s.cfg.tmax) hcap4 hbuf
    rw [← hir] at htimer hstate hlen hentry
    exact ⟨htimer, fun hnoise => absurd hgap (by omega), fun _ => ⟨hstate, hlen, hentry⟩⟩
  · rw [irTick_idle_noise (ir := { s.ir with timer := min n s.cfg.tmax }) hs (by rw [satInc_min]; omega)] at hir
    rw [hir]
    exact ⟨rfl, fun _ => ⟨hs, rfl, rfl⟩, fun hstart => absurd hstart hgap⟩

end Sys2Proof.Proofs

/-! PHPWM on every scale and over many ticks (`41_phase_pwm.md` sections 2 and 3): what a tick shows, where pins
rise, what a level written in mid half-phase does, and what n ticks add up to. -/

namespace Sys2Proof.Proofs

open Sys2Proof.Machine Sys2Proof.Safety

/-! ### One tick -/

/-- Settles O41: at a flip the pins of the phase left are cleared first, and the others were clear. -/
theorem flipBreaksBeforeMake : Obligations.FlipBreaksBeforeMake := by
  intro s ⟨_, _, _, _, _, _, _, honly, _⟩
  refine ⟨_, exec_pwmtick s, fun hf => ?_, pwmTickOut_chPin_of_not_flip⟩
  exact ⟨pinsThenVisible s.cfg s.pwm, pwmTickOut_chPin_of_flip hf, pinsThenVisible_length _ _,
    allLow_pinsThenVisible hf honly⟩

/-- Settles O59: the three cases of the pins after a tick, of which only the flip knows its new count. -/
theorem pinsAfterTickAtAnyScale : Obligations.PinsAfterTickAtAnyScale := by
  intro s
  refine ⟨_, exec_pwmtick s, nextPins_length _ _, fun j hj => ⟨fun hh => nextPins_of_halt hh j, ?flip, ?other⟩⟩
  case flip =>
    intro hh hf
    change Pins.get (nextPins s.cfg s.pwm) j = true ↔ _ ∧ ¬(pinLevel s j ≤ nextCnt s.cfg s.pwm ∧ _)
    rw [nextPins_of_flip hh hf, nextCnt_of_flip hf, and_iff_right hj, Nat.le_zero]
    rfl
  case other =>
    intro hh hf
    exact (nextPins_of_not_flip hh hf j).trans (and_iff_right hj)

/-- Settles O60: the half-phase that the flip begins, `duty_after_flip`, is stated for every scale. -/
theorem dutyAtAnyScale : Obligations.DutyAtAnyScale := by
  intro s j k ⟨⟨_, _, _, hcntW, _⟩, _⟩ hj hh hf hk
  obtain ⟨t, ht, -, hpwm⟩ := runOps_pwmticks (k + 1) s
  obtain ⟨-, -, hpin⟩ := duty_after_flip hcntW hj hh hf hk
  exact ⟨t, ht, hpwm ▸ hpin⟩

/-! ### Where pins rise (`10_state.md` R21) -/

/-- Of the ticks only a flip with HALT clear sets pins, and sets those of the phase entered. -/
theorem nextPins_rise {c : Config} {p : Phpwm} {j : Nat} (hlow : Pins.get p.pin j = false)
    (hhigh : Pins.get (nextPins c p) j = true) :
    p.cnt + 1 = c.phaseTicks ∧ p.halt = false ∧ c.pinPh j = p.phase.other ∧ j < c.nPin := by
  cases hh : p.halt with
  | true => exact absurd hhigh (by simp [nextPins_of_halt hh])
  | false =>
    by_cases hf : p.cnt + 1 = c.phaseTicks
    · obtain ⟨hj, hph, -⟩ := (nextPins_of_flip hh hf j).mp hhigh
      exact ⟨hf, rfl, hph, hj⟩
    · obtain ⟨-, hold, -⟩ := (nextPins_of_not_flip hh hf j).mp hhigh
      exact absurd (hlow.symm.trans hold) Bool.false_ne_true

/-- Of the operations only the tick sets pins. -/
theorem Effect.pin_rise {s t : State} {i : Instr} {j : Nat} (h : Effect s i t) (hlow : Pins.get s.pwm.pin j = false)
    (hhigh : Pins.get t.pwm.pin j = true) :
    i = .pwmtick ∧ atFlip s ∧ s.pwm.halt = false ∧ s.cfg.pinPh j = s.pwm.phase.other ∧ j < s.cfg.nPin := by
  cases h with
  | pwmtick => exact ⟨rfl, nextPins_rise hlow hhigh⟩
  | reset => simp at hhigh
  | wrPwmCtrl d =>
    rw [withPwm_pwm, writeHalt_pin] at hhigh
    split at hhigh
    · simp at hhigh
    · exact absurd (hlow.symm.trans hhigh) Bool.false_ne_true
  | irtick | wrPwmLevel | wrIrCtrl | portsOnly => exact absurd (hlow.symm.trans hhigh) Bool.false_ne_true

/-- Settles O45: of what sets a pin only the flip is left. -/
theorem pinsRiseOnlyAtFlip : Obligations.PinsRiseOnlyAtFlip :=
  fun _ _ _ _ h hlow hhigh => (effect_of_exec h).pin_rise hlow hhigh

/-! ### A level written in mid half-phase (`41_phase_pwm.md` R83) -/

theorem pinCh_lt {c : Config} (hw : c.wf) {j : Nat} (hj : j < c.nPin) : c.pinCh j < c.nCh := by
  obtain ⟨⟨-, -, -, -, -, hch⟩, -⟩ := hw
  rw [Config.pinCh, ← List.getElem_eq_getD (h := hj)]
  exact hch _ (List.getElem_mem hj)

/-- Settles O44: the ticks that follow compare the count with the level just written. -/
theorem levelChangeInMidPhase : Obligations.LevelChangeInMidPhase := by
  intro s i j m d ⟨hw, _, _, _, hlevels, _⟩ hj hh hph hch hm
  have hi : i.val < s.cfg.nCh := hch ▸ pinCh_lt hw hj
  obtain ⟨-, -, -, hcntW, -⟩ := hw
  have hwrite : exec (.wrPwmLevel i d) s = .next (s.withPwm (writeLevel s.cfg i (levelOf s.cfg d) s.pwm)) := rfl
  obtain ⟨t, ht, -, hpwm⟩ := runOps_pwmticks m (s.withPwm (writeLevel s.cfg i (levelOf s.cfg d) s.pwm))
  have hlevel : levelAt (writeLevel s.cfg i (levelOf s.cfg d) s.pwm) (s.cfg.pinCh j) = d.toNat % 2 ^ s.cfg.levelW := by
    rw [levelAt_writeLevel _ _ _ _ _ hlevels, if_pos ⟨hch, hi⟩, levelOf, trunc]
  have hpin := iterate_pwmTick_pin (p := writeLevel s.cfg i (levelOf s.cfg d) s.pwm) hcntW hm hh hj
  rw [withPwm_cfg, withPwm_pwm] at hpwm
  rw [← hpwm, hlevel] at hpin
  refine ⟨t, (runOps_cons _ hwrite).trans ht, fun hhigh => hpin.trans ?_, fun hlow => ?_⟩
  · rw [writeLevel_pin, writeLevel_phase, writeLevel_cnt, and_iff_right hhigh, and_iff_right hph]
    omega
  · refine Bool.eq_false_iff.mpr fun hrise => ?_
    obtain ⟨hhigh, -⟩ := hpin.mp hrise
    exact absurd (hlow.symm.trans hhigh) Bool.false_ne_true

/-! ### n ticks (`30_encoding.md` R62) -/

/-- The quotient and the remainder of the next number: at a multiple of `m` the one moves, elsewhere the other. -/
theorem succ_div_mod {m : Nat} (hm : 0 < m) (x : Nat) :
    (x + 1) / m = (if x % m + 1 = m then x / m + 1 else x / m) ∧
    (x + 1) % m = if x % m + 1 = m then 0 else x % m + 1 := by
  have hx := Nat.mod_add_div x m
  have hlt := Nat.mod_lt x hm
  rw [Nat.div_mod_unique hm]
  split
  · rw [Nat.mul_add]
    omega
  · omega

/-- One flip more is the other phase. -/
theorem other_of_flips (q : Nat) (ph : Phase) :
    (if q % 2 = 0 then ph else ph.other).other = if (q + 1) % 2 = 0 then ph else ph.other := by
  by_cases hq : q % 2 = 0
  · rw [if_pos hq, if_neg (by omega)]
  · rw [if_neg hq, if_pos (by omega), other_other]

/-- The count and the phase after n ticks, which flip once per `PHASE_TICKS`. -/
theorem iterate_pwmTick_addUp {c : Config} {p : Phpwm} (hcntW : c.phaseTicks ≤ 2 ^ c.cntW)
    (hcnt : p.cnt < c.phaseTicks) (n : Nat) :
    ((pwmTick c)^[n] p).cnt = (p.cnt + n) % c.phaseTicks ∧
    ((pwmTick c)^[n] p).phase = (if (p.cnt + n) / c.phaseTicks % 2 = 0 then p.phase else p.phase.other) ∧
    ((pwmTick c)^[n] p).halt = p.halt ∧ ((pwmTick c)^[n] p).level = p.level := by
  induction n with
  | zero => simp [Nat.mod_eq_of_lt hcnt, Nat.div_eq_of_lt hcnt]
  | succ n ih =>
    obtain ⟨hcntn, hphase, hhalt, hlevel⟩ := ih
    have hpos : 0 < c.phaseTicks := by omega
    have hlt : ((pwmTick c)^[n] p).cnt < c.phaseTicks := hcntn ▸ Nat.mod_lt _ hpos
    obtain ⟨hdiv, hmod⟩ := succ_div_mod hpos (p.cnt + n)
    rw [Function.iterate_succ_apply']
    refine ⟨?_, ?_, hhalt, hlevel⟩
    · rw [pwmTick_cnt, ← Nat.add_assoc, hmod, ← hcntn]
      split
      case isTrue hf => exact nextCnt_of_flip hf
      case isFalse hf => exact nextCnt_of_not_flip hcntW hlt hf
    · rw [pwmTick_phase, ← Nat.add_assoc, hdiv, ← hcntn]
      split
      case isTrue hf => rw [nextPhase_of_flip hf, hphase, other_of_flips]
      case isFalse hf => rw [nextPhase_of_not_flip hf, hphase]

theorem iterate_pwmTick_ticks {c : Config} {p : Phpwm} (hticks : p.ticks < 2 ^ c.tkw) (n : Nat) :
    ((pwmTick c)^[n] p).ticks = (p.ticks + n) % 2 ^ c.tkw := by
  induction n with
  | zero => exact (Nat.mod_eq_of_lt hticks).symm
  | succ n ih => rw [Function.iterate_succ_apply', pwmTick_ticks, nextTicks_eq, ih, Nat.mod_add_mod, Nat.add_assoc]

/-- Settles O48: tick by tick, and the rest of the block is left alone. -/
theorem manyTicksAddUp : Obligations.ManyTicksAddUp := by
  intro s n ⟨⟨_, _, _, hcntW, _⟩, _, hcnt, hticks, _⟩
  obtain ⟨t, ht, honly, hpwm⟩ := runOps_pwmticks n s
  have hcounters := iterate_pwmTick_addUp hcntW hcnt n
  have hfree := iterate_pwmTick_ticks hticks n
  rw [← hpwm] at hcounters hfree
  exact ⟨t, ht, honly, hfree, hcounters⟩

/-! ### From dark pins (`41_phase_pwm.md` section 3) -/

/-- From dark pins every operation but a flip leaves dark pins. -/
theorem Effect.allLow {s t : State} {i : Instr} (h : Effect s i t) (hi : i = .pwmtick → ¬atFlip s)
    (hs : Safety.allLow s.pwm.pin) : Safety.allLow t.pwm.pin := by
  refine allLow_iff_get.mpr fun j => Bool.eq_false_iff.mpr fun hhigh => ?_
  obtain ⟨htick, hf, -⟩ := h.pin_rise (allLow_iff_get.mp hs j) hhigh
  exact hi htick hf

theorem nextCnt_le (c : Config) (p : Phpwm) : nextCnt c p ≤ p.cnt + 1 := by
  by_cases hf : p.cnt + 1 = c.phaseTicks
  · rw [nextCnt_of_flip hf]
    exact Nat.zero_le _
  · rw [nextCnt, if_neg (isFlip_iff.not.mpr hf)]
    exact Nat.mod_le _ _

/-- A sequence begun by one operation has no more left to count than before. -/
theorem Effect.cnt_add_count_le {s t : State} {i : Instr} (h : Effect s i t) (is : List Instr) :
    t.pwm.cnt + is.count .pwmtick ≤ s.pwm.cnt + (i :: is).count .pwmtick := by
  have hcount := List.count_le_count_cons (a := Instr.pwmtick) (b := i) (l := is)
  cases h with
  | pwmtick =>
    have hcnt := nextCnt_le s.cfg s.pwm
    rw [List.count_cons_self]
    change nextCnt s.cfg s.pwm + _ ≤ _
    omega
  | reset => exact Nat.add_le_add (Nat.zero_le _) hcount
  | irtick | wrPwmCtrl | wrPwmLevel | wrIrCtrl | portsOnly => exact Nat.add_le_add_left hcount _

/-- Settles O49, by induction on the sequence: the ticks still to come cannot reach the flip. -/
theorem noPinBeforeFirstFlip : Obligations.NoPinBeforeFirstFlip := by
  intro is
  induction is with
  | nil => exact fun s _ hs _ => ⟨s, rfl, hs⟩
  | cons i is ih =>
    intro s hw hs hcount
    obtain ⟨u, hu, he⟩ := exec_effect i s
    have hnotFlip : i = .pwmtick → ¬atFlip s := by
      rintro rfl
      rw [List.count_cons_self] at hcount
      omega
    have hle := he.cnt_add_count_le is
    rw [runOps_cons is hu]
    rw [← he.cfg_eq] at hw hcount
    exact ih u hw (he.allLow hnotFlip hs) (by omega)

end Sys2Proof.Proofs

/-! The reserved bits of the registers, writes done twice, who writes what, and one step of a trace
(`42_host_access.md` section 4, `20_memory.md` sections 2 and 3, `00_scope.md` section 4). -/

namespace Sys2Proof.Proofs

open Sys2Proof.Machine Sys2Proof.Safety

/-! ### Reserved bits read 0 (`42_host_access.md` R105) -/

theorem getLsbD_setWidth_of_le {w v n : Nat} (x : BitVec w) (hn : w ≤ n) : (x.setWidth v).getLsbD n = false := by
  rw [BitVec.getLsbD_setWidth, BitVec.getLsbD_of_ge x n hn, Bool.and_false]

/-- An entry or a level that is not held reads 0, which is below every bound (log entry 10). -/
theorem getD_lt {l : List Nat} {m : Nat} (hm : 0 < m) (h : ∀ x ∈ l, x < m) (k : Nat) : l.getD k 0 < m := by
  by_cases hk : k < l.length
  · rw [← List.getElem_eq_getD (h := hk)]
    exact h _ (List.getElem_mem hk)
  · rwa [List.getD_eq_default _ _ (Nat.le_of_not_lt hk)]

theorem getLsbD_readPins_of_ge (c : Config) (p : Phpwm) {n : Nat} (hn : c.nPin ≤ n) :
    (readPins c p).getLsbD n = false :=
  getLsbD_setWidth_of_le _ (by rwa [tabulate_length])

theorem getLsbD_readLevel {c : Config} {p : Phpwm} (hfit : ∀ l ∈ p.level, l < 2 ^ c.levelW) (i : Fin 4) {n : Nat}
    (hn : (if i.val < c.nCh then c.levelW else 0) ≤ n) : (readLevel c i p).getLsbD n = false := by
  by_cases hi : i.val < c.nCh
  · rw [if_pos hi] at hn
    rw [readLevel_of_lt hi]
    exact getLsbD_zext32 (getD_lt (Nat.two_pow_pos _) hfit _) hn
  · rw [readLevel_of_ge (Nat.le_of_not_lt hi)]
    exact BitVec.getLsbD_zero

theorem getLsbD_readRawbuf {c : Config} {ir : Irrx} (hfit : ∀ d ∈ ir.rawbuf, d < 2 ^ c.tw) (k : Fin 128) {n : Nat}
    (hn : c.tw ≤ n) : (readRawbuf c k ir).getLsbD n = false := by
  by_cases hk : k.val < c.cap
  · rw [readRawbuf_of_lt hk]
    exact getLsbD_zext32 (getD_lt (Nat.two_pow_pos _) hfit _) hn
  · rw [readRawbuf_of_ge (Nat.le_of_not_lt hk)]
    exact BitVec.getLsbD_zero

theorem implementedWidth_of_level {a : Index} (h : 0x08 ≤ a.toNat ∧ a.toNat ≤ 0x0B) (c : Config) :
    implementedWidth c a = if (channelOf a).val < c.nCh then c.levelW else 0 := by
  unfold implementedWidth
  iterate 4 rw [if_neg (by bv_omega)]
  rw [if_pos h]

theorem implementedWidth_of_entry {a : Index} (h : 0x80 ≤ a.toNat) (c : Config) : implementedWidth c a = c.tw := by
  unfold implementedWidth
  iterate 8 rw [if_neg (by bv_omega)]
  rw [if_pos h]

/-- Register by register, what a read returns fits the implemented width. -/
theorem getLsbD_regRead {s : State} {a : Index} {n : Nat} (hs : MachineInv s) (hn : implementedWidth s.cfg a ≤ n) :
    (regRead a s).getLsbD n = false := by
  obtain ⟨⟨-, htmax, -, hcntW, -⟩, ⟨-, hentries, htimer, -⟩, hcnt, hticks, -, hlevels, -⟩ := hs
  fun_cases regRead a s
  case case1 | case2 | case7 | case10 =>
    subst a
    exact getLsbD_setWidth_of_le _ hn
  case case3 =>
    subst a
    exact getLsbD_zext32 (w := s.cfg.cntW) (by omega) hn
  case case4 =>
    subst a
    exact getLsbD_zext32 hticks hn
  case case5 =>
    subst a
    exact getLsbD_readPins_of_ge s.cfg s.pwm hn
  case case9 =>
    subst a
    have hpos := Nat.two_pow_pos s.cfg.tw
    exact getLsbD_zext32 (w := s.cfg.tw) (by omega) hn
  case case6 h => exact getLsbD_readLevel hlevels _ (implementedWidth_of_level h s.cfg ▸ hn)
  case case11 h => exact getLsbD_readRawbuf hentries _ (implementedWidth_of_entry h s.cfg ▸ hn)
  case case8 | case12 => exact BitVec.getLsbD_zero

/-! ### Reserved bits are ignored on write -/

/-- The level register of no channel is not there to be written (log entry 3). -/
theorem writeLevel_of_ge {c : Config} {i : Fin 4} (h : c.nCh ≤ i.val) (v : Nat) (p : Phpwm) :
    writeLevel c i v p = p := by rw [writeLevel, if_neg (Nat.not_lt.mpr h)]

/-- Register by register, a write uses no bit of its data from the implemented width on. -/
theorem regWrite_congr {s : State} {a : Index} {d e : Data}
    (h : ∀ n < implementedWidth s.cfg a, d.getLsbD n = e.getLsbD n) : regWrite a d s = regWrite a e s := by
  fun_cases regWrite a d s
  case case1 =>
    subst a
    have hhalt : haltOf d = haltOf e := h 0 Nat.one_pos
    rw [hhalt]
    rfl
  case case2 _ ha =>
    rw [implementedWidth_of_level ha] at h
    rw [regWrite_of_level ha]
    by_cases hi : (channelOf a).val < s.cfg.nCh
    · rw [if_pos hi] at h
      rw [levelOf_congr h]
    · rw [writeLevel_of_ge (Nat.le_of_not_lt hi), writeLevel_of_ge (Nat.le_of_not_lt hi)]
  case case3 =>
    subst a
    have hresume : resumeOf d = resumeOf e := h 0 Nat.one_pos
    rw [hresume]
    rfl
  case case4 h0 hlevel hctrl => rw [regWrite, if_neg h0, if_neg hlevel, if_neg hctrl]

/-- Settles O22: what `RegRead` returns fits the width, and `RegWrite` sees no bit above it. -/
theorem reservedBitsHaveNoEffect : Obligations.ReservedBitsHaveNoEffect := by
  constructor
  · intro s a hs
    exact ⟨_, regRead a s, decode_rdWord a, returns_of_respond (exec_decodeRd a s) rfl, fun _ => getLsbD_regRead hs⟩
  · intro s a d e h
    refine ⟨_, _, _, decode_wrWord a d, decode_wrWord a e, exec_decodeWr a d s, ?_⟩
    rw [exec_decodeWr, regWrite_congr h]

/-- Settles O58: the read answers 0, and the write writes no level. -/
theorem levelIndexOfNoChannelIsUnmapped : Obligations.LevelIndexOfNoChannelIsUnmapped := by
  intro s i d h
  refine ⟨returns_of_respond rfl (readLevel_of_ge h s.pwm), hasNoEffect_of_ignore ?_⟩
  change Host.Outcome.next (s.withPwm (writeLevel s.cfg i (levelOf s.cfg d) s.pwm)) = ignore s
  rw [writeLevel_of_ge h]
  rfl

/-! ### The same write twice (`20_memory.md` R42) -/

/-- An operation that leaves its own result unchanged may as well be performed once. -/
theorem runOps_twice {i : Instr} {s t : State} (h : exec i s = .next t) (ht : exec i t = .next t) :
    runOps [i, i] s = runOps [i] s := by
  rw [runOps_cons _ h, runOps_cons _ ht, runOps_cons _ h]

theorem writeHalt_twice (c : Config) (b : Bool) (p : Phpwm) : writeHalt c b (writeHalt c b p) = writeHalt c b p := by
  cases b <;> rfl

theorem writeLevel_twice (c : Config) (i : Fin 4) (v : Nat) (p : Phpwm) :
    writeLevel c i v (writeLevel c i v p) = writeLevel c i v p := by
  by_cases h : i.val < c.nCh
  · simp [writeLevel, h]
  · rw [writeLevel_of_ge (Nat.le_of_not_lt h), writeLevel_of_ge (Nat.le_of_not_lt h)]

theorem resume_state_ne_stop (ir : Irrx) : (resume ir).state ≠ .stop := by
  by_cases h : ir.state = .stop
  · rw [resume_of_stop h]
    exact IrState.noConfusion
  · rwa [resume_of_not_stop h]

theorem resumeCommand_twice (b : Bool) (ir : Irrx) :
    (if b then resume (if b then resume ir else ir) else (if b then resume ir else ir)) =
      if b then resume ir else ir := by
  cases b with
  | true => exact resume_of_not_stop (resume_state_ne_stop ir)
  | false => rfl

/-- Settles O23: each write finds its own value there the second time. -/
theorem writesAreIdempotent : Obligations.WritesAreIdempotent := by
  intro s i d
  refine ⟨runOps_twice rfl ?_, runOps_twice rfl ?_, runOps_twice rfl ?_⟩
  · exact congrArg (Host.Outcome.next ∘ s.withPwm) (writeHalt_twice s.cfg (haltOf d) s.pwm)
  · exact congrArg (Host.Outcome.next ∘ s.withPwm) (writeLevel_twice s.cfg i (levelOf s.cfg d) s.pwm)
  · exact congrArg (Host.Outcome.next ∘ s.withIr) (resumeCommand_twice (resumeOf d) s.ir)

/-! ### Who writes what (`20_memory.md` R44) -/

namespace Effect

variable {s t : State} {i : Instr}

/-- No operation writes the environment's sequence. -/
theorem ops_eq (h : Effect s i t) : t.ops = s.ops := by cases h <;> rfl

/-- The capture state and the length. -/
theorem frame_writer (h : Effect s i t) (hr : i ≠ .reset) (hne : t.ir.state ≠ s.ir.state ∨ t.ir.rawlen ≠ s.ir.rawlen) :
    ((∃ b, i = .irtick b) ∧ s.ir.state ≠ .stop) ∨ ((∃ d, i = .wrIrCtrl d) ∧ s.ir.state = .stop) := by
  cases h with
  | irtick b =>
    refine .inl ⟨⟨b, rfl⟩, fun hs => ?_⟩
    simp [irTick_of_stop b hs] at hne
  | wrIrCtrl d =>
    refine .inr ⟨⟨d, rfl⟩, by_contra fun hs => ?_⟩
    simp [resume_of_not_stop hs] at hne
  | reset => exact absurd rfl hr
  | pwmtick | wrPwmCtrl | wrPwmLevel | portsOnly => simp at hne

/-- The entries. -/
theorem rawbuf_writer (h : Effect s i t) (hr : i ≠ .reset) (hne : t.ir.rawbuf ≠ s.ir.rawbuf) :
    (∃ b, i = .irtick b) ∧ s.ir.state ≠ .stop := by
  cases h with
  | irtick b =>
    refine ⟨⟨b, rfl⟩, fun hs => ?_⟩
    simp [irTick_of_stop b hs] at hne
  | wrIrCtrl d =>
    rw [withIr_ir] at hne
    split at hne <;> simp at hne
  | reset => exact absurd rfl hr
  | pwmtick | wrPwmCtrl | wrPwmLevel | portsOnly => exact absurd rfl hne

/-- The pins: the host only clears them, with HALT. -/
theorem pin_writer (h : Effect s i t) (hr : i ≠ .reset) (hne : t.pwm.pin ≠ s.pwm.pin) :
    i = .pwmtick ∨ ((∃ d, i = .wrPwmCtrl d) ∧ t.pwm.halt = true ∧ Safety.allLow t.pwm.pin) := by
  cases h with
  | pwmtick => exact .inl rfl
  | wrPwmCtrl d =>
    rw [withPwm_pwm, writeHalt_pin] at hne ⊢
    split at hne
    case isTrue hd =>
      rw [if_pos hd]
      exact .inr ⟨⟨d, rfl⟩, hd, allLow_pinsAllLow s.cfg⟩
    case isFalse => exact absurd rfl hne
  | reset => exact absurd rfl hr
  | irtick | wrPwmLevel | wrIrCtrl | portsOnly => exact absurd rfl hne

theorem halt_writer (h : Effect s i t) (hr : i ≠ .reset) (hne : t.pwm.halt ≠ s.pwm.halt) : ∃ d, i = .wrPwmCtrl d := by
  cases h with
  | wrPwmCtrl d => exact ⟨d, rfl⟩
  | reset => exact absurd rfl hr
  | pwmtick | irtick | wrPwmLevel | wrIrCtrl | portsOnly => exact absurd rfl hne

theorem level_writer (h : Effect s i t) (hr : i ≠ .reset) (hne : t.pwm.level ≠ s.pwm.level) :
    ∃ n d, i = .wrPwmLevel n d := by
  cases h with
  | wrPwmLevel n d => exact ⟨n, d, rfl⟩
  | reset => exact absurd rfl hr
  | pwmtick | irtick | wrPwmCtrl | wrIrCtrl | portsOnly => exact absurd rfl hne

end Effect

/-- Settles O53, element by element. -/
theorem singleWriterOwnership : Obligations.SingleWriterOwnership := by
  intro i s t hr h
  have he := effect_of_exec h
  refine ⟨he.frame_writer hr, fun hne => ?_, he.rawbuf_writer hr, fun hne => ?_, he.pin_writer hr, he.halt_writer hr,
    he.level_writer hr, he.cfg_eq, he.ops_eq⟩
  · by_contra hno
    exact hne (he.timer_eq (fun b hb => hno ⟨b, hb⟩) hr)
  · by_contra hno
    obtain ⟨hticks, hcnt, hphase⟩ := he.counters_eq hno hr
    simp [hticks, hcnt, hphase] at hne

/-! ### The tick event (`60_exceptions.md` R113) -/

theorem Effect.tickEvt_iff {s t : State} {i : Instr} (h : Effect s i t) : t.out.tickEvt = true ↔ i = .pwmtick := by
  cases h with
  | pwmtick => exact iff_of_true rfl rfl
  | portsOnly i v hi =>
    refine iff_of_false Bool.false_ne_true ?_
    rintro rfl
    cases hi
  | irtick | reset | wrPwmCtrl | wrPwmLevel | wrIrCtrl => exact iff_of_false Bool.false_ne_true Instr.noConfusion

/-- Settles O55: every operation is performed, and shows what `Effect` says. -/
theorem tickEventIsThePwmTick : Obligations.TickEventIsThePwmTick := by
  intro i s
  obtain ⟨t, ht, he⟩ := exec_effect i s
  exact ⟨t, ht, he.tickEvt_iff⟩

/-! ### One step of a trace (log entry 1) -/

theorem step_of_decode {s : State} {w : OpWord} {rest : List OpWord} {i : Instr} (h : s.ops = w :: rest)
    (hd : decode w = .ok i) : step s = exec i (s.withOps rest) := by
  rw [step, fetch_of_ops h, stepWith_of_ok hd]

theorem step_of_no_ops {s : State} (h : s.ops = []) : step s = .next (s.withOut (quiet s.pwm)) := by
  rw [step, fetch, h, stepWith]

/-- What the table's decoder reads, the decoder reads from the word that `withFetchWord` presents. -/
theorem decode_of_decodeTableWord {nbits n : Nat} {i : Instr} (h : decodeTableWord nbits n = some i) :
    decode (BitVec.ofNat 42 (n % 2 ^ nbits)) = .ok i := by
  rw [decodeTableWord] at h
  split at h
  case h_1 j hj =>
    obtain rfl := Option.some.inj h
    rw [decodeNat] at hj
    split at hj
    · exact hj
    · cases hj
  case h_2 => cases h

/-- Settles O7: the presented word is the first, and leaves the sequence as it was. -/
theorem stepPerformsDecodedOperation : Obligations.StepPerformsDecodedOperation :=
  ⟨fun _ _ _ _ h hd => step_of_decode h hd,
    fun s _ _ _ h => step_of_decode (s := s.withFetchWord _ _) rfl (decode_of_decodeTableWord h)⟩

/-- Settles O8: only the ports are written. -/
theorem idleStepChangesNothing : Obligations.IdleStepChangesNothing :=
  fun _ h => ⟨_, step_of_no_ops h, ⟨rfl, rfl, rfl, rfl, rfl⟩, rfl, rfl⟩

/-- Settles O52: this hardware's configuration is legal, and the block's state is that after `RESET`. -/
theorem invariantHoldsAtReset : Obligations.InvariantHoldsAtReset :=
  have hw : State.reset.cfg.wf := by decide
  ⟨hw, irShape_afterReset _ _, pwmShape_afterReset hw⟩

end Sys2Proof.Proofs

/-! One `clk` cycle and the steps on its words (`30_encoding.md` R51). -/

namespace Sys2Proof.Proofs

open Sys2Proof.Machine Sys2Proof.Safety

/-! ### The words of a cycle -/

@[simp] theorem decode_rstWord : decode rstWord = .ok .reset := rfl

theorem decodeRd_ne_pwmtick (a : Index) : decodeRd a ≠ .pwmtick := by
  fun_cases decodeRd a <;> exact Instr.noConfusion

theorem decodeWr_ne_pwmtick (a : Index) (d : Data) : decodeWr a d ≠ .pwmtick := by
  fun_cases decodeWr a d <;> exact Instr.noConfusion

theorem accessWord_decodes (p : PortIn) : ∃ i, decode (accessWord p) = .ok i ∧ i ≠ .pwmtick := by
  unfold accessWord
  split
  · exact ⟨_, decode_wrWord _ _, decodeWr_ne_pwmtick _ _⟩
  · exact ⟨_, decode_rdWord _, decodeRd_ne_pwmtick _⟩

/-- The words of the ticks spell the ticks. -/
theorem tickWords_decode (p : PortIn) :
    (∀ w ∈ tickWords p, ∃ i, decode w = .ok i) ∧
    ((∃ w ∈ tickWords p, decode w = .ok .pwmtick) ↔ p.pwmTick = true) := by
  unfold tickWords
  cases p.pwmTick <;> cases p.irTick <;> simp

/-- Every word of a cycle spells an operation, a PWM tick exactly where the cycle has one. -/
theorem cycleWords_decode (p : PortIn) :
    (∀ w ∈ cycleWords p, ∃ i, decode w = .ok i) ∧
    ((∃ w ∈ cycleWords p, decode w = .ok .pwmtick) ↔ p.rst = false ∧ p.pwmTick = true) := by
  obtain ⟨hticks, hpwm⟩ := tickWords_decode p
  obtain ⟨i, hi, hne⟩ := accessWord_decodes p
  cases hr : p.rst with
  | true => simp [cycleWords, hr]
  | false =>
    rw [and_iff_right rfl, ← hpwm]
    cases hs : p.hSel with
    | false =>
      rw [cycleWords_of_no_access hr hs]
      exact ⟨hticks, Iff.rfl⟩
    | true =>
      rw [cycleWords_of_access hr hs, List.forall_mem_append, List.forall_mem_singleton]
      exact ⟨⟨hticks, i, hi⟩, by simp [or_and_right, exists_or, hi, hne]⟩

/-! ### Words performed in a cycle and step by step -/

/-- No operation reads the environment's sequence. -/
theorem exec_withOps {i : Instr} {s t : State} (h : exec i s = .next t) (ops : List OpWord) :
    exec i (s.withOps ops) = .next (t.withOps ops) := by
  cases i <;> cases h <;> rfl

theorem run_succ {k : Nat} {s t : State} (h : step s = .next t) :
    Host.Core.run core (k + 1) s = Host.Core.run core k t := by
  have hcore : core.step s = .next t := h
  simp only [Host.Core.run, hcore]

/-- The words performed as one cycle's, and taken one at a time, leave the same block. -/
theorem performWords_run {ws : List OpWord} {s : State} {acc : PortOut} (hws : ∀ w ∈ ws, ∃ i, decode w = .ok i)
    (hs : s.ops = []) :
    ∃ t u, performWords ws s acc = .next t ∧ Host.Core.run core ws.length (s.withOps ws) = .next u ∧
      SameBlock u t ∧
      (t.out.tickEvt = true ↔ acc.tickEvt = true ∨ ∃ w ∈ ws, decode w = .ok .pwmtick) := by
  induction ws generalizing s acc with
  | nil => exact ⟨s.withOut acc, s.withOps [], rfl, rfl, ⟨rfl, rfl, rfl, hs, rfl⟩, by simp⟩
  | cons w ws ih =>
    obtain ⟨i, hd⟩ := hws w List.mem_cons_self
    obtain ⟨v, hv, he⟩ := exec_effect i s
    obtain ⟨t, u, ht, hu, hsame, htick⟩ := ih (s := v) (acc := joinOut acc v.out)
      (fun w hw => hws w (List.mem_cons_of_mem _ hw)) (he.ops_eq.trans hs)
    have hstep : step (s.withOps (w :: ws)) = .next (v.withOps ws) :=
      (step_of_decode rfl hd).trans (exec_withOps hv ws)
    refine ⟨t, u, (performWords_cons hd hv).trans ht, (run_succ hstep).trans hu, hsame, htick.trans ?_⟩
    simp [joinOut, he.tickEvt_iff, hd, or_assoc]

/-- Settles O56: a cycle with words performs them, and one without shows nothing. -/
theorem cyclePerformsItsOperations : Obligations.CyclePerformsItsOperations := by
  constructor
  · intro p s hr
    have hwords : cycleWords p = [rstWord] := by rw [cycleWords, if_pos hr]
    have hcycle : cycle p s = .next ((resetBlock s).withOut (joinOut nothingShown (resetBlock s).out)) := by
      rw [cycle_of_ne_nil (by simp [hwords]), hwords, performWords_cons decode_rstWord rfl]
      rfl
    exact ⟨_, resetBlock s, hcycle, rfl, rfl, rfl, rfl, rfl, rfl⟩
  · intro p s hs
    obtain ⟨hdec, htick⟩ := cycleWords_decode p
    have hpresent : presentCycle p s = s.withOps (cycleWords p) := by rw [presentCycle, hs, List.nil_append]
    rw [hpresent, ← htick]
    by_cases hwords : cycleWords p = []
    · rw [hwords]
      exact ⟨_, s.withOps [], cycle_of_nil hwords s, rfl, ⟨rfl, rfl, rfl, hs, rfl⟩, by simp⟩
    · obtain ⟨t, u, ht, hu, hsame, hevt⟩ := performWords_run (acc := nothingShown) hdec hs
      refine ⟨t, u, (cycle_of_ne_nil hwords s).trans ht, hu, hsame, hevt.trans ?_⟩
      exact or_iff_right Bool.false_ne_true

end Sys2Proof.Proofs
